-- ==== Sys2Proof/Word.lean ====
section
/-! DEFINITION. The data types of `spec/00_scope.md` R5 and `spec/10_state.md`: bytes, decoded samples, scan entries and
indices, vectors, and the pose and points whose number formats the spec leaves open (D9). -/

namespace Sys2Proof

/-- The parameters of R5 that types are made from. They are part of the configuration record `Config.Params` of
`Config.lean`, and stand here because its other fields have these types. -/
structure Config.Widths where
  /-- `BYTE_W`: width of a RawByte. -/
  byteW : Nat
  /-- `SAMPLE_W`: width of a decoded vector field. -/
  sampleW : Nat
  /-- `RANGE_W`: width of a scan entry. -/
  rangeW : Nat
  /-- `SCAN_N`: entries of the RangeScan, one per whole degree. -/
  scanN : Nat

/-- This hardware's values (R5). -/
abbrev Config.widths : Config.Widths where
  byteW := 8
  sampleW := 16
  rangeW := 14
  scanN := 360

/-- RawByte (R5, R6): bit 0 is the least significant bit, bit 7 the sync flag. -/
abbrev Byte := BitVec Config.widths.byteW

/-- A decoded vector field, signed two's complement (R5, R23); its number is `BitVec.toInt`. -/
abbrev Sample := BitVec Config.widths.sampleW

/-- A scan entry, unsigned millimetres, 0 meaning no return (R5, R25). -/
abbrev Range := BitVec Config.widths.rangeW

/-- An index of the scan, one per whole degree (R5, R25). -/
abbrev ScanIndex := Fin Config.widths.scanN

/-- The RangeScan: index = angle in whole degrees (R25). -/
abbrev RangeScan := Vector Range Config.widths.scanN

/-- Vector3 (R23, R24): three Sample14-decoded fields. -/
structure Vec3 where
  x : Sample
  y : Sample
  z : Sample
  deriving DecidableEq, Repr, Inhabited

/-- A number in the format `COORD` (D9, OPEN). The spec gives the format no width and no meaning for its bits, so a
value is known only by its code; nothing here reads a code as a number. DESIGN CHOICE, log entry 4. -/
structure Coord where
  code : Nat
  deriving DecidableEq, Repr, Inhabited

/-- An angle in the format `HEADING` (D9, OPEN), known only by its code. DESIGN CHOICE, log entry 4. -/
structure Heading where
  code : Nat
  deriving DecidableEq, Repr, Inhabited

/-- Pose = (x, y, heading) (R26): an input of the assembler, owned by Presentation. -/
structure Pose where
  x : Coord
  y : Coord
  heading : Heading
  deriving DecidableEq, Repr, Inhabited

/-- Point2 (R13, R176): a pair of coordinates in the format `COORD`. -/
structure Point2 where
  x : Coord
  y : Coord
  deriving DecidableEq, Repr, Inhabited

/-- A line segment between two points of a type `P` (R13 LidarSegment). `P` is `Point2` in the machine and a pair of
reals in the reference (R176 (a)). The spec's `end` is called `stop`. -/
structure SegmentOf (P : Type) where
  start : P
  stop : P
  deriving DecidableEq, Repr

/-- LidarSegment in the implementation's format. -/
abbrev Segment := SegmentOf Point2

end Sys2Proof
end

