-- ==== Sys2Proof/Config.lean ====
section
/-! DEFINITION. The configuration record of `spec/00_scope.md` R5 (every literal of the source is a named parameter, D19,
U7) and the one open function of the placement stage (`spec/42_lidar_assembler.md` R176, D10, U9). -/

namespace Sys2Proof

/-- The configuration record: every parameter of R5, the widths and `SCAN_N` of `Word.lean` first. -/
structure Config.Params extends Config.Widths where
  /-- `SYNC_MIN`: a byte is a SyncMarker iff it is at least this. -/
  syncMin : Nat
  /-- `BUF_BOUND`: the buffer is reset when its length exceeds this. -/
  bufBound : Nat
  /-- `OP_GYRO`. -/
  opGyro : Byte
  /-- `OP_ACCEL`. -/
  opAccel : Byte
  /-- `OP_SCAN`. -/
  opScan : Byte
  /-- `VEC_MIN_LEN`: least payload length of a vector frame that is decoded. -/
  vecMinLen : Nat
  /-- `SCAN_MIN_LEN`: least payload length of a scan frame that is decoded. -/
  scanMinLen : Nat
  /-- `S14_SHIFT_LSB`. -/
  s14ShiftLsb : Nat
  /-- `S14_SHIFT_MSB`. -/
  s14ShiftMsb : Nat
  /-- `R14_SHIFT_MSB`. -/
  r14ShiftMsb : Nat
  /-- `NO_RETURN`: the sentinel. -/
  noReturn : Range
  /-- `DISC_MM`: a pair is a discontinuity iff its distances differ by more than this. -/
  discMm : Nat
  /-- The scan index mapping (R146, D11), a named field as U1 asks: sample `i` of the payload goes to this index. -/
  scanIndex : ScanIndex → ScanIndex

/-- This hardware's values: the document's literals (R5) and `(360 - i) mod 360` (R146). -/
def Config.hw : Config.Params where
  toWidths := Config.widths
  syncMin := 128
  bufBound := 1000
  opGyro := 128
  opAccel := 129
  opScan := 132
  vecMinLen := 6
  scanMinLen := 2 * Config.widths.scanN
  s14ShiftLsb := 2
  s14ShiftMsb := 9
  r14ShiftMsb := 7
  noReturn := 0
  discMm := 500
  scanIndex := fun i => ⟨(Config.widths.scanN - i.val) % Config.widths.scanN, Nat.mod_lt _ (by decide)⟩

/-- The longest payload a Frame can have, 999 (R118): one less than `BUF_BOUND`, for the opcode. -/
def Config.maxPayload : Nat := Config.hw.bufBound - 1

/-- `BUF_CAP`, the largest length `cur` ever has, 1001 (R5). -/
def Config.bufCap : Nat := Config.hw.bufBound + 1

/-- `place : Pose -> index -> distance -> Point2` (R176 (b), D10): the implemented endpoint `P(k, d)`, in the open
formats `COORD` and `HEADING` with the open trigonometry `TRIG`. It has no body, so nothing can be proved of it but that
it is a function of its three arguments. Log entry 4. -/
opaque Config.place : Pose → ScanIndex → Range → Point2

end Sys2Proof
end

