-- ==== Sys2Proof/Syntax.lean ====
section
/-! DEFINITION. The instructions: one constructor for each row of `spec/opcode_table.json`
(`spec/30_encoding.md` R80, R83, R89). Frames come first, in the table's priority order, then the two byte classes. -/

namespace Sys2Proof

/-- A completed Frame (R81, R110): its opcode byte and its payload, `payload[k] = frame[k + 1]` (R51). -/
structure Frame where
  opcode : Byte
  payload : List Byte
  deriving DecidableEq, Repr, Inhabited

/-- The instruction set (R1: the wire protocol). The four frame rows apply to a completed Frame and are what DecodeStep
does with it (R140); the two byte-class rows apply to every byte taken from the ByteSource (R80, R112). -/
inductive Instr where
  /-- A frame of opcode 128, format V (R84, R144). -/
  | gyro (payload : List Byte)
  /-- A frame of opcode 129, format V (R84, R145). -/
  | accel (payload : List Byte)
  /-- A frame of opcode 132, format S (R85, R146). -/
  | scan (payload : List Byte)
  /-- A frame of any other opcode, format U (R86, R148). -/
  | unk (opcode : Byte) (payload : List Byte)
  /-- A byte with bit 7 set (R80, R114, R115); the whole byte is the opcode of the frame it opens. -/
  | sync (b : Byte)
  /-- A byte with bit 7 clear (R80, R116). -/
  | data (b : Byte)
  deriving DecidableEq, Repr, Inhabited

end Sys2Proof
end

