-- ==== Sys2Proof/WellFormed.lean ====
section
/-! DEFINITION. Which terms of `Instr` are instructions of the wire protocol: the bit patterns of
`spec/30_encoding.md` R80, the opcodes of R89 and the payload bounds of R118. Bit 7 is read here from the bit pattern of
R80; `Decode.lean` reads it by the value `SYNC_MIN` of R5. -/

namespace Sys2Proof

/-- The pattern of a SYNC byte (R80): bit 7 is 1. -/
def hasSyncPattern (b : Byte) : Bool := b.getLsbD 7

/-- The pattern of a DATA byte (R80): bit 7 is 0. -/
def hasDataPattern (b : Byte) : Bool := !b.getLsbD 7

/-- A payload the synchronizer can deliver (R110, R118): at most 999 bytes, each a DATA byte. -/
def payloadOk (p : List Byte) : Bool := decide (p.length ≤ Config.maxPayload) && p.all hasDataPattern

/-- An opcode the table gives to no row of priority 1 (R89: 130, 131, 133..255). -/
def unassignedOpcode (op : Byte) : Bool :=
  hasSyncPattern op && op != Config.hw.opGyro && op != Config.hw.opAccel && op != Config.hw.opScan

/-- The instruction is one the wire protocol has. -/
def Instr.wf : Instr → Bool
  | .gyro p => payloadOk p
  | .accel p => payloadOk p
  | .scan p => payloadOk p
  | .unk op p => unassignedOpcode op && payloadOk p
  | .sync b => hasSyncPattern b
  | .data b => hasDataPattern b

/-- The instruction is a frame, not a byte class. -/
def Instr.isFrame : Instr → Bool
  | .gyro _ => true
  | .accel _ => true
  | .scan _ => true
  | .unk _ _ => true
  | .sync _ => false
  | .data _ => false

end Sys2Proof
end

