-- ==== Sys2Proof/Decode.lean ====
section
/-! DEFINITION. From bytes to instructions and back (`spec/30_encoding.md`): the class of a byte (R80), the row of a
completed Frame (R89), the next frame of a byte stream (R82), and the encoders (R93, R94). -/

namespace Sys2Proof

/-- A byte is a SYNC byte iff its value is at least `SYNC_MIN` (R5, R80). -/
def isSync (b : Byte) : Bool := decide (Config.hw.syncMin ≤ b.toNat)

/-- The byte-class row of one byte of the stream (R80): total, every byte is of exactly one class. -/
def decodeByte (b : Byte) : Instr :=
  if isSync b then .sync b else .data b

/-- The row of a completed Frame (R89): the three exact opcodes first, every other byte is `UNK`. It is total: an opcode
below 128, which no Frame has, is `UNK` as R148 says. -/
def decodeFrame (f : Frame) : Instr :=
  if f.opcode = Config.hw.opGyro then .gyro f.payload
  else if f.opcode = Config.hw.opAccel then .accel f.payload
  else if f.opcode = Config.hw.opScan then .scan f.payload
  else .unk f.opcode f.payload

/-- Why a byte stream yields no instruction at its head. -/
inductive DecodeError where
  /-- There is no byte. -/
  | noBytes
  /-- A frame is open and no SYNC byte follows: it is not known to be complete (R82, R234). -/
  | unterminated
  /-- More than 999 DATA bytes follow the opcode: the overflow guard destroys the frame (R82, R118). -/
  | overlong
  deriving DecidableEq, Repr

/-- The run of DATA bytes at the head of a stream (R82: scan forward for bit 7). -/
def dataRun (bs : List Byte) : List Byte := bs.takeWhile (fun b => !isSync b)

/-- What follows that run: nothing, or a stream that begins with a SYNC byte. -/
def afterRun (bs : List Byte) : List Byte := bs.dropWhile (fun b => !isSync b)

/-- The instruction at the head of a byte stream, with the bytes after it. A DATA byte there belongs to no frame (R92)
and is the byte-class row `DATA`; a SYNC byte opens a frame, whose length is known only by the next SYNC byte (R82), which
stays at the head of the rest, being the opcode of the next frame. -/
def decodeStream : List Byte → Except DecodeError (Instr × List Byte)
  | [] => .error .noBytes
  | b :: rest =>
    if isSync b then
      if (afterRun rest).isEmpty then .error .unterminated
      else if Config.maxPayload < (dataRun rest).length then .error .overlong
      else .ok (decodeFrame ⟨b, dataRun rest⟩, afterRun rest)
    else .ok (.data b, rest)

/-- The bytes of an instruction (R80, R81, R84, R85, R86): a frame is its opcode and its payload, a byte-class row is its
one byte. -/
def encode : Instr → List Byte
  | .gyro p => Config.hw.opGyro :: p
  | .accel p => Config.hw.opAccel :: p
  | .scan p => Config.hw.opScan :: p
  | .unk op p => op :: p
  | .sync b => [b]
  | .data b => [b]

/-- The bytes `lsb = q[6:0]`, `msb = q[13:7]` of a 14-bit pattern, in wire order (R52, R94). -/
def splitQ (q : Nat) : List Byte := [BitVec.ofNat _ (q % 128), BitVec.ofNat _ (q / 128 % 128)]

/-- `enc14s(v)` (R94), for a multiple of 4 in −32768..32764; no other value can be sent as a Sample14. -/
def enc14s (v : Int) : Option (List Byte) :=
  if v % 4 = 0 ∧ -32768 ≤ v ∧ v ≤ 32764 then some (splitQ ((v / 4) % 16384).toNat) else none

/-- `enc14u(r)` (R94). -/
def enc14u (r : Range) : List Byte := splitQ r.toNat

/-- The payload of the notation `GYRO x, y, z` and `ACCEL x, y, z` (R93), where the three values can be sent. -/
def encVector (x y z : Int) : Option (List Byte) :=
  match enc14s x, enc14s y, enc14s z with
  | some a, some b, some c => some (a ++ b ++ c)
  | _, _, _ => none

/-- The payload of the notation `SCAN r_0, …` (R93), the samples in wire order. -/
def encRanges : List Range → List Byte
  | [] => []
  | r :: rs => enc14u r ++ encRanges rs

/-- The payload length a frame's format requires (R83): the number of zero operand bytes that `tableBytes` gives it. -/
def requiredLength (op : Byte) : Nat :=
  if op = Config.hw.opGyro then Config.hw.vecMinLen
  else if op = Config.hw.opAccel then Config.hw.vecMinLen
  else if op = Config.hw.opScan then Config.hw.scanMinLen
  else 0

/-- The bytes of a number laid out as the table numbers bits: the first byte holds bits 7..0. -/
def wordBytes : Nat → Nat → List Byte
  | 0, _ => []
  | n + 1, w => BitVec.ofNat _ w :: wordBytes n (w / 2 ^ Config.widths.byteW)

/-- The stream that stands for a table word: its bytes, then, where the first is an opcode, zero operand bytes up to the
length its format requires, then the SYNC byte that closes the frame (the opcode once more: R114 corner 2). Log
entry 9. -/
def tableBytes (nbits w : Nat) : List Byte :=
  match wordBytes (nbits / Config.widths.byteW) w with
  | [] => []
  | op :: rest =>
    if isSync op then op :: rest ++ List.replicate (requiredLength op - rest.length) 0 ++ [op]
    else op :: rest

/-- The instruction the decoder reads from a table word; `none` where it refuses. A byte with bit 7 set is read as the
opcode of a frame (rows `GYRO`, `ACCEL`, `SCAN`, `UNK`), since every word of the row `SYNC` is also a word of one of
those; the row `SYNC` is what `decodeByte` reads. Log entry 9. -/
def decodeTableWord (nbits w : Nat) : Option Instr :=
  match decodeStream (tableBytes nbits w) with
  | .ok (i, _) => some i
  | .error _ => none

end Sys2Proof
end

