-- ==== Sys2Proof/Machine/State.lean ====
section
/-! DEFINITION. The state of `spec/10_state.md` R20, and beside it what the environment brings to the machine: the pose
input (R26), the ByteSource's answers (R111) and what the host does (R212). All of it is plain data. -/

namespace Sys2Proof.Machine

/-- What the host does to the core between its steps (R124, R212, R230). -/
inductive HostEvent where
  /-- Start a tick (R122, signal `tick`). -/
  | tick
  /-- Change the pose input (R26, R212). -/
  | setPose (p : Pose)
  /-- Start one assembly, which works on a snapshot of the scan and the pose (R179, R182, signal `asm_start`). -/
  | asmStart
  /-- Reset (R230, signal `rst`). -/
  | reset
  deriving DecidableEq, Repr

/-- What the readers of a tick are given at its end (R61, R122): SensorState and the pose, from which the assembler's
output is computed (`Snapshot.polar`, `Snapshot.segments` in `Assembler.lean`). -/
structure Snapshot where
  gyro : Vec3
  accel : Vec3
  scan : RangeScan
  pose : Pose
  deriving DecidableEq, Repr

/-- The machine's state. The first five fields are the complete architectural state (R20); the last four are the
environment's side, which no rule of the core reads but through a poll, a host event or an assembly. -/
structure State where
  /-- The accumulation buffer (R21). -/
  cur : List Byte
  /-- The gyroscope vector (R23). -/
  gyro : Vec3
  /-- The accelerometer vector (R24). -/
  accel : Vec3
  /-- The range scan (R25). -/
  scan : RangeScan
  /-- The current tick is still draining bytes (R27). -/
  drainOpen : Bool
  /-- The pose input (R26). Its value before the host sets it is a DESIGN CHOICE, log entry 3. -/
  pose : Pose
  /-- The ByteSource's answers to the polls to come, oldest first (R111, U11); past the end it answers no data.
  DESIGN CHOICE, log entry 1. -/
  rx : List (Option Byte)
  /-- What the host does at each step to come; `none` and the end of the list leave the step to the core.
  DESIGN CHOICE, log entry 2. -/
  host : List (Option HostEvent)
  /-- What the readers were last given. DESIGN CHOICE, log entry 5. -/
  snapshot : Option Snapshot
  deriving DecidableEq, Repr

/-- Reasons to fault: there are none (R200: no operation faults, traps, halts, stalls or signals). -/
inductive Fault where
  deriving DecidableEq, Repr

/-- Reasons to refuse an instruction. -/
inductive Refusal where
  /-- Raised by `exec` alone, for an instruction with no meaning yet; no arm raises it in this model. Safe: the machine
  stops where the hardware goes on. -/
  | notModelled (mnemonic : String)
  deriving DecidableEq, Repr

/-- The vector of three zeros. -/
def zeroVec : Vec3 := ⟨0, 0, 0⟩

/-- The scan with no return anywhere. -/
def emptyScan : RangeScan := Vector.replicate Config.widths.scanN 0

/-- The state after reset (R35): SensorState zero, the buffer empty, no tick open. No input is waiting, the host does
nothing, and the pose has the code 0 throughout (DESIGN CHOICE, log entry 3: R26 gives it no reset value). -/
def State.reset : State where
  cur := []
  gyro := zeroVec
  accel := zeroVec
  scan := emptyScan
  drainOpen := false
  pose := ⟨⟨0⟩, ⟨0⟩, ⟨0⟩⟩
  rx := []
  host := []
  snapshot := none

end Sys2Proof.Machine
end

