-- ==== Sys2Proof/Machine/Flags.lean ====
section
/-! DEFINITION. The hardware has no status flags, condition codes or predicates (`spec/10_state.md` R30). The one thing a
rule tests besides data values is `synced` (R22), a function of the buffer. -/

namespace Sys2Proof.Machine

/-- `synced` (R22): the buffer is non-empty and its first byte is a SyncMarker. -/
def synced (cur : List Byte) : Bool :=
  match cur with
  | [] => false
  | b :: _ => isSync b

end Sys2Proof.Machine
end

