-- ==== Sys2Proof/Machine/Operands.lean ====
section
/-! DEFINITION. The operand forms (`spec/41_framedecode.md`): the two bit assemblies Sample14 (R141) and Range14 (R143),
the operands of format V and format S (R84, R85, R140), and the decoder's verdict on a frame (SensorEvent, D24). -/

namespace Sys2Proof.Machine

/-- Bits 6..0 of a payload byte (R141, R143, D7). -/
def low7 (b : Byte) : BitVec 7 := b.extractLsb' 0 7

/-- Sample14(lsb, msb) (R141): `msb` in bits 15..9, `lsb` in bits 8..2, bits 1..0 zero; the word is read as signed. -/
def sample14 (lsb msb : Byte) : Sample :=
  ((low7 msb).setWidth Config.widths.sampleW <<< Config.hw.s14ShiftMsb) ||| ((low7 lsb).setWidth Config.widths.sampleW <<< Config.hw.s14ShiftLsb)

/-- Range14(lsb, msb) (R143): `msb` in bits 13..7, `lsb` in bits 6..0, unsigned. -/
def range14 (lsb msb : Byte) : Range :=
  ((low7 msb).setWidth Config.widths.rangeW <<< Config.hw.r14ShiftMsb) ||| (low7 lsb).setWidth Config.widths.rangeW

/-- The operand of a vector frame, `V(p)` of R140; it can be taken only of a payload that passes the length test, so no
byte beyond the payload is ever read (R140, U3). -/
def vectorOperand (p : List Byte) (h : Config.hw.vecMinLen ≤ p.length) : Vec3 :=
  have h6 : 6 ≤ p.length := h
  ⟨sample14 p[0] p[1], sample14 p[2] p[3], sample14 p[4] p[5]⟩

/-- Range sample `i` of a scan payload in wire order (R85): payload bytes `2i` and `2i + 1`. -/
def scanSample (p : List Byte) (h : Config.hw.scanMinLen ≤ p.length) (i : ScanIndex) : Range :=
  have _ : 2 * Config.widths.scanN ≤ p.length := h
  range14 (p[2 * i.val]'(by omega)) (p[2 * i.val + 1]'(by omega))

/-- The operand of a scan frame, `W(p)` of R140: `w[(360 - i) mod 360] = Range14(p[2i], p[2i + 1])`, written entry by
entry. The index map is its own inverse (R147), so entry `k` receives the sample the map sends `k` to. -/
def scanOperand (p : List Byte) (h : Config.hw.scanMinLen ≤ p.length) : RangeScan :=
  Vector.ofFn fun k => scanSample p h (Config.hw.scanIndex k)

/-- SensorEvent (R140, D24): what the decoder does with a frame. -/
inductive SensorEvent where
  | gyroSample (v : Vec3)
  | accelSample (v : Vec3)
  | scanUpdate (w : RangeScan)
  | nothing
  deriving DecidableEq, Repr

/-- The event of a frame of opcode 128 (R140, R144): a short payload is no event. -/
def gyroEvent (p : List Byte) : SensorEvent :=
  if h : Config.hw.vecMinLen ≤ p.length then .gyroSample (vectorOperand p h) else .nothing

/-- The event of a frame of opcode 129 (R140, R145). -/
def accelEvent (p : List Byte) : SensorEvent :=
  if h : Config.hw.vecMinLen ≤ p.length then .accelSample (vectorOperand p h) else .nothing

/-- The event of a frame of opcode 132 (R140, R146). -/
def scanEvent (p : List Byte) : SensorEvent :=
  if h : Config.hw.scanMinLen ≤ p.length then .scanUpdate (scanOperand p h) else .nothing

/-- The event of a completed Frame (R140): its opcode is tested first, its length after (R207). -/
def sensorEvent (f : Frame) : SensorEvent :=
  match decodeFrame f with
  | .gyro p => gyroEvent p
  | .accel p => accelEvent p
  | .scan p => scanEvent p
  | .unk _ _ => .nothing
  | .sync _ => .nothing
  | .data _ => .nothing

end Sys2Proof.Machine
end

