-- ==== Sys2Proof/Machine/Ops.lean ====
section
/-! DEFINITION. The named operations over the state: the setters, the synchronizer's byte step (`spec/40_framesync.md`
R112 to R116), and the decoder's update of SensorState (`spec/41_framedecode.md` R140, R150).

There is no exception to take and none to return from: nothing is raised (`spec/60_exceptions.md` R200), an anomaly saves
nothing and changes no mode (R205, R208), and recovery is the next SYNC byte (R209). -/

namespace Sys2Proof.Machine

/-- `cur <- c`. -/
def State.setCur (s : State) (c : List Byte) : State := { s with cur := c }

/-- `gyro.x, gyro.y, gyro.z <- v`, simultaneously. -/
def State.setGyro (s : State) (v : Vec3) : State := { s with gyro := v }

/-- `accel.x, accel.y, accel.z <- v`, simultaneously. -/
def State.setAccel (s : State) (v : Vec3) : State := { s with accel := v }

/-- `scan[k] <- w[k]` for every `k`, simultaneously. -/
def State.setScan (s : State) (w : RangeScan) : State := { s with scan := w }

/-- `drain_open <- d`. -/
def State.setDrainOpen (s : State) (d : Bool) : State := { s with drainOpen := d }

/-- The pose input takes a new value. -/
def State.setPose (s : State) (p : Pose) : State := { s with pose := p }

/-- The ByteSource's answers to come. -/
def State.setRx (s : State) (r : List (Option Byte)) : State := { s with rx := r }

/-- The host's doings to come. -/
def State.setHost (s : State) (h : List (Option HostEvent)) : State := { s with host := h }

/-- What the readers were last given. -/
def State.setSnapshot (s : State) (v : Option Snapshot) : State := { s with snapshot := v }

/-- The overflow guard (R113): a buffer longer than `BUF_BOUND` is emptied. -/
def overflowGuard (cur : List Byte) : List Byte :=
  if Config.hw.bufBound < cur.length then [] else cur

/-- The Frame a SYNC byte completes: the buffer, where it is synced (R114), and none where it is not (R115). -/
def completedFrame (cur : List Byte) : Option Frame :=
  match cur with
  | [] => none
  | op :: payload => if synced cur then some ⟨op, payload⟩ else none

/-- The SYNC arm of ByteStep (R112, R114, R115): the new buffer and the Frame emitted, if any. -/
def syncArm (cur : List Byte) (b : Byte) : List Byte × Option Frame :=
  ([b], completedFrame (overflowGuard cur))

/-- The DATA arm of ByteStep (R112, R116). -/
def dataArm (cur : List Byte) (b : Byte) : List Byte × Option Frame :=
  (overflowGuard cur ++ [b], none)

/-- ByteStep (R112) as a function of the buffer and the byte. -/
def byteStep (cur : List Byte) (b : Byte) : List Byte × Option Frame :=
  if isSync b then syncArm cur b else dataArm cur b

/-- ByteStep folded over a byte sequence (R123): the buffer at the end and the Frames emitted, in order. -/
def framesOf : List Byte → List Byte → List Byte × List Frame
  | cur, [] => (cur, [])
  | cur, b :: bs =>
    let r := framesOf (byteStep cur b).1 bs
    (r.1, (byteStep cur b).2.toList ++ r.2)

/-- `apply(event)` of R140: one object is replaced whole, or nothing changes. -/
def applyEvent (e : SensorEvent) (s : State) : State :=
  match e with
  | .gyroSample v => s.setGyro v
  | .accelSample v => s.setAccel v
  | .scanUpdate w => s.setScan w
  | .nothing => s

/-- DecodeStep (R140). -/
def decodeStep (f : Frame) (s : State) : State := applyEvent (sensorEvent f) s

/-- DecodeStep for each Frame of a sequence, in order (R60). -/
def decodeAll (fs : List Frame) (s : State) : State := fs.foldl (fun t f => decodeStep f t) s

/-- The outcome of one arm of ByteStep taken into the state: the buffer is stored, and where a Frame was emitted it is
decoded in the same step and the drain of the tick ends (R122, R150). -/
def acceptByte (r : List Byte × Option Frame) (s : State) : State :=
  match r.2 with
  | none => s.setCur r.1
  | some f => (decodeStep f (s.setCur r.1)).setDrainOpen false

end Sys2Proof.Machine
end

