-- ==== Sys2Proof/Machine/Bytes.lean ====
section
/-! DEFINITION. The meanings of the byte-class rows `SYNC` and `DATA` (`spec/40_framesync.md` R112 to R116): what one
consumed byte does, the decoding of the Frame it completes included (`spec/41_framedecode.md` R150). -/

namespace Sys2Proof.Machine

/-- `SYNC` (R114, R115): after the overflow guard, emit and decode the buffer's Frame if it is synced; the buffer becomes
`[b]`. -/
def execSync (b : Byte) (s : State) : Host.Outcome State Fault Refusal :=
  .next (acceptByte (syncArm s.cur b) s)

/-- `DATA` (R116): after the overflow guard, append the byte; no Frame. -/
def execData (b : Byte) (s : State) : Host.Outcome State Fault Refusal :=
  .next (acceptByte (dataArm s.cur b) s)

end Sys2Proof.Machine
end

