-- ==== Sys2Proof/Machine/Frames.lean ====
section
/-! DEFINITION. The meanings of the frame rows `GYRO`, `ACCEL`, `SCAN` and `UNK` (`spec/41_framedecode.md` R144 to R148):
what DecodeStep does with a completed Frame of that row. They touch the one object their event names and nothing else
(R140); the buffer and the drain are the business of the SYNC byte that completed the Frame. -/

namespace Sys2Proof.Machine

/-- `GYRO` (R144). -/
def execGyro (p : List Byte) (s : State) : Host.Outcome State Fault Refusal :=
  .next (applyEvent (gyroEvent p) s)

/-- `ACCEL` (R145). -/
def execAccel (p : List Byte) (s : State) : Host.Outcome State Fault Refusal :=
  .next (applyEvent (accelEvent p) s)

/-- `SCAN` (R146). -/
def execScan (p : List Byte) (s : State) : Host.Outcome State Fault Refusal :=
  .next (applyEvent (scanEvent p) s)

/-- `UNK` (R148): no state changes, whatever the opcode and the payload. -/
def execUnk (_op : Byte) (_p : List Byte) (s : State) : Host.Outcome State Fault Refusal :=
  .next (applyEvent .nothing s)

end Sys2Proof.Machine
end

