-- ==== Sys2Proof/Machine/Dispatch.lean ====
section
/-! DEFINITION. The one dispatch of instructions to their meanings. -/

namespace Sys2Proof.Machine

def exec (i : Instr) (s : State) : Host.Outcome State Fault Refusal :=
  match i with
  | .gyro p => Sys2Proof.Machine.execGyro p s
  | .accel p => Sys2Proof.Machine.execAccel p s
  | .scan p => Sys2Proof.Machine.execScan p s
  | .unk op p => Sys2Proof.Machine.execUnk op p s
  | .sync b => Sys2Proof.Machine.execSync b s
  | .data b => Sys2Proof.Machine.execData b s

end Sys2Proof.Machine
end

