-- ==== Sys2Proof/Machine/Assembler.lean ====
section
/-! DEFINITION. The LidarSegmentAssembler (`spec/42_lidar_assembler.md`): the exact filter stage (R171 to R174), the polar
form of its result (R178), and the placement of the surviving pairs by an endpoint function (R175, R176). It is a pure
function of the scan and the pose (R170, R179). -/

namespace Sys2Proof.Machine

/-- One element of the polar form (R178): the pair's indices and the distances used for its two endpoints. -/
structure Polar where
  i : ScanIndex
  j : ScanIndex
  d1 : Range
  d2 : Range
  deriving DecidableEq, Repr

/-- The partner `j = (i + 1) mod 360` of an index (R171). -/
def partner (i : ScanIndex) : ScanIndex := ⟨(i.val + 1) % Config.widths.scanN, Nat.mod_lt _ (by decide)⟩

/-- The substitution of a lone missing sample (R173), on local copies. -/
def borrow (d1 d2 : Range) : Range × Range :=
  if d1 = Config.hw.noReturn then (d2, d2)
  else if d2 = Config.hw.noReturn then (d1, d1)
  else (d1, d2)

/-- The difference of two distances in unbounded integers (R174). -/
def distanceGap (d1 d2 : Range) : Nat := ((d1.toNat : Int) - (d2.toNat : Int)).natAbs

/-- The filter stage at one index (R170): the pair `(i, i + 1)` with the distances to use, or none where it is skipped. -/
def pairAt (scan : RangeScan) (i : ScanIndex) : Option Polar :=
  let j := partner i
  if scan[i] = Config.hw.noReturn ∧ scan[j] = Config.hw.noReturn then none
  else
    let d := borrow scan[i] scan[j]
    if Config.hw.discMm < distanceGap d.1 d.2 then none else some ⟨i, j, d.1, d.2⟩

/-- The polar form of an assembly (R178): the surviving pairs in increasing order of `i` (R177). -/
def polarForm (scan : RangeScan) : List Polar := (List.finRange Config.widths.scanN).filterMap (pairAt scan)

/-- The segment of a surviving pair under an endpoint function (R175): from `P(i, d1)` to `P(j, d2)`. -/
def placePair {P : Type} (place : ScanIndex → Range → P) (q : Polar) : SegmentOf P :=
  ⟨place q.i q.d1, place q.j q.d2⟩

/-- Assemble (R170, R178) under an endpoint function. -/
def assembleWith {P : Type} (place : ScanIndex → Range → P) (scan : RangeScan) : List (SegmentOf P) :=
  (polarForm scan).map (placePair place)

/-- Assemble(scan, Pose) (R170) in the implementation's formats (R176 (b)). -/
def assemble (scan : RangeScan) (pose : Pose) : List Segment := assembleWith (Config.place pose) scan

/-- The assembler's output for the inputs a snapshot holds, in polar form. -/
def Snapshot.polar (v : Snapshot) : List Polar := polarForm v.scan

/-- The assembler's output for the inputs a snapshot holds. -/
def Snapshot.segments (v : Snapshot) : List Segment := assemble v.scan v.pose

end Sys2Proof.Machine
end

