-- ==== Sys2Proof/Machine/Tick.lean ====
section
/-! DEFINITION. The tick (`spec/40_framesync.md` R122), the poll (R111, R117), what the host does to the core (R124, R212,
R230), and what the next step of the machine is. `Step.lean` only calls these. -/

namespace Sys2Proof.Machine

/-- One poll of the ByteSource (R111): its answer, which is thereby consumed. -/
def State.poll (s : State) : Option Byte × State :=
  match s.rx with
  | [] => (none, s)
  | r :: rs => (r, s.setRx rs)

/-- What the readers are given: SensorState and the pose as they stand (R61, R179). -/
def State.takeSnapshot (s : State) : Snapshot := ⟨s.gyro, s.accel, s.scan, s.pose⟩

/-- The assembler and Presentation run on the state as it stands (R61, R122). -/
def State.present (s : State) : State := s.setSnapshot (some s.takeSnapshot)

/-- The drain of a tick ends (R117, R122), and the readers run. -/
def endDrain (s : State) : State := (s.setDrainOpen false).present

/-- After a byte was taken: where it completed a Frame the drain is over and the readers run (R122). -/
def afterByte (s : State) : State := if s.drainOpen then s else s.present

/-- Reset of the core (R230): every piece of the state of R20 takes its reset value; what the ByteSource holds (R231) and
the rest of the environment's side is not the core's to reset. Log entry 6. -/
def resetCore (s : State) : State :=
  { State.reset with pose := s.pose, rx := s.rx, host := s.host, snapshot := s.snapshot }

/-- What a host event does. A tick that starts while the drain is open leaves it open (N19). -/
def hostStep (e : HostEvent) (s : State) : State :=
  match e with
  | .tick => s.setDrainOpen true
  | .setPose p => s.setPose p
  | .asmStart => s.present
  | .reset => resetCore s

/-- What the next step of the machine is. -/
inductive Turn where
  /-- The host does something. -/
  | host (e : HostEvent)
  /-- No tick is open: the core is idle (R122, R215). -/
  | idle
  /-- The ByteSource answered no data (R117). -/
  | noByte
  /-- The ByteSource answered a byte, which is consumed (R111). -/
  | byte (b : Byte)
  deriving DecidableEq, Repr

/-- The core's own turn: it polls while the drain is open, and takes nothing otherwise (R27). -/
def coreTurn (s : State) : Turn × State :=
  if s.drainOpen then
    match s.poll with
    | (none, t) => (.noByte, t)
    | (some b, t) => (.byte b, t)
  else (.idle, s)

/-- The turn of the next step, and the state with the input it used up taken away. The host comes first where it does
something at this step. -/
def nextTurn (s : State) : Turn × State :=
  match s.host with
  | [] => coreTurn s
  | none :: h => coreTurn (s.setHost h)
  | some e :: h => (.host e, s.setHost h)

/-- The outcome of a byte's instruction with the end of the tick taken in (R122). -/
def finishByte (o : Host.Outcome State Fault Refusal) : Host.Outcome State Fault Refusal :=
  match o with
  | .next t => .next (afterByte t)
  | .fault r => .fault r
  | .refused r => .refused r

/-- The drain loop of Tick (R122) over the answers to come: it ends at the first answer that is no data or completes a
Frame, and leaves the rest with the ByteSource. -/
def drainLoop : List (Option Byte) → State → State
  | [], s => (s.setRx []).setDrainOpen false
  | none :: rs, s => (s.setRx rs).setDrainOpen false
  | some b :: rs, s =>
    let t := acceptByte (byteStep s.cur b) (s.setRx rs)
    match (byteStep s.cur b).2 with
    | some _ => t
    | none => drainLoop rs t

/-- Tick (R122) as one composite function (D4): the state at its end and the segments assembled in it. -/
def tick (s : State) : State × List Segment :=
  let t := (drainLoop s.rx (s.setDrainOpen true)).present
  (t, assemble t.scan t.pose)

/-- `n` ticks, one after another. -/
def ticks : Nat → State → State
  | 0, s => s
  | n + 1, s => ticks n (tick s).1

/-- The bytes that a list of poll answers delivers. -/
def bytesOf (rs : List (Option Byte)) : List Byte := rs.filterMap id

/-- The plain fold (R123): every Frame of a byte sequence decoded in order, the buffer as it is at the end. -/
def foldBytes (bs : List Byte) (s : State) : State :=
  (decodeAll (framesOf s.cur bs).2 s).setCur (framesOf s.cur bs).1

/-- The next step is the core's, a tick is open, and the ByteSource's next answer is the byte `b`. -/
def State.offerByte (s : State) (b : Byte) : State :=
  { s with drainOpen := true, rx := some b :: s.rx, host := none :: s.host }

/-- The buffer holds a completed frame and the ByteSource's next answer is a SYNC byte that closes it (the frame's own
opcode once more). -/
def State.stageFrame (s : State) (bytes : List Byte) : State :=
  match bytes with
  | [] => s
  | op :: _ => (s.offerByte op).setCur bytes

/-- An instruction put where the next step runs it: a byte-class row is offered as the next byte, a frame is staged with
the SYNC byte that completes it. -/
def State.placeInstr (s : State) (i : Instr) : State :=
  match i with
  | .gyro p => s.stageFrame (encode (.gyro p))
  | .accel p => s.stageFrame (encode (.accel p))
  | .scan p => s.stageFrame (encode (.scan p))
  | .unk op p => s.stageFrame (encode (.unk op p))
  | .sync b => s.offerByte b
  | .data b => s.offerByte b

end Sys2Proof.Machine
end

