-- ==== Sys2Proof/Machine/Step.lean ====
section
/-! DEFINITION. One step of the machine: a host event, an idle step, a poll that answers no data, or one byte, which is
decoded and run (`spec/00_scope.md` R12, `spec/40_framesync.md` R112, R122). -/

namespace Sys2Proof.Machine

/-- One step. A byte step is one atomic transition: guard, arm, and the decoding of the Frame it completes (D3, R150). -/
def step (s : State) : Host.Outcome State Fault Refusal :=
  match nextTurn s with
  | (.host e, t) => .next (hostStep e t)
  | (.idle, t) => .next t
  | (.noByte, t) => .next (endDrain t)
  | (.byte b, t) => finishByte (exec (decodeByte b) t)

/-- The state with a table word's instruction placed where the next step runs it (log entry 9). -/
def State.withFetchWord (s : State) (nbits w : Nat) : State :=
  match decodeTableWord nbits w with
  | none => s
  | some i => s.placeInstr i

end Sys2Proof.Machine
end

