-- ==== Sys2Proof/Machine/Ports.lean ====
section
/-! DEFINITION. The output ports of the spec's own interface (`spec/40_framesync.md` R124, `spec/42_lidar_assembler.md`
R182) as functions of the state; the register outputs are the fields themselves. Clock cycles are not modelled (R242). -/

namespace Sys2Proof.Machine

/-- `rx_take` (R124): the ByteSource has a byte and the drain is open. -/
def State.rxTake (s : State) : Bool :=
  match s.rx with
  | some _ :: _ => s.drainOpen
  | _ => false

/-- The read port `scan_idx` / `scan_val` on the scan (R124); reading changes nothing (R57). -/
def State.scanVal (s : State) (k : ScanIndex) : Range := s.scan[k]

/-- What the segment stream of an assembly shows at an index (R182): a segment with its `seg_i` where `seg_valid` is 1,
and none where the index is skipped. -/
def Snapshot.segAt (v : Snapshot) (i : ScanIndex) : Option (ScanIndex × Segment) :=
  (pairAt v.scan i).map fun q => (i, placePair (Config.place v.pose) q)

end Sys2Proof.Machine
end

