-- ==== Sys2Proof/Machine/Reference.lean ====
section
/-! DEFINITION. The reference meaning of the placement stage (`spec/42_lidar_assembler.md` R175, R176 (a)): exact real
coordinates, with the exact cosine and sine of an angle in degrees (`spec/00_scope.md` R9, G1). The machine does not
compute it: its endpoints are `Config.place`, in open formats, and no source relates the two (R176 (c)). It is given as a
relation, so that nothing here stands for a computed real number. -/

namespace Sys2Proof.Machine

/-- A pose in real numbers: millimetres, millimetres, degrees (R26). -/
structure RefPose where
  x : ℝ
  y : ℝ
  heading : ℝ

/-- A point of the world frame in real millimetres (R175). -/
structure RefPoint where
  x : ℝ
  y : ℝ

/-- `p` is the reference endpoint `P(k, d)` (R175):
`(Pose.x + d * cosd(Pose.heading + k), Pose.y + d * sind(Pose.heading + k))`, where `cosd(a) = cos(a * pi / 180)` and
`sind(a) = sin(a * pi / 180)` (R9). -/
def IsRefPoint (pose : RefPose) (k : ScanIndex) (d : Range) (p : RefPoint) : Prop :=
  p.x = pose.x + (d.toNat : ℝ) * Real.cos ((pose.heading + (k.val : ℝ)) * Real.pi / 180) ∧
  p.y = pose.y + (d.toNat : ℝ) * Real.sin ((pose.heading + (k.val : ℝ)) * Real.pi / 180)

/-- `seg` is the reference segment of a surviving pair (R175): from `P(i, d1)` to `P(j, d2)`. -/
def IsRefSegment (pose : RefPose) (q : Polar) (seg : SegmentOf RefPoint) : Prop :=
  IsRefPoint pose q.i q.d1 seg.start ∧ IsRefPoint pose q.j q.d2 seg.stop

/-- `out` is the reference result of Assemble(scan, Pose) (R170, R176 (a)). -/
def IsRefAssembly (scan : RangeScan) (pose : RefPose) (out : List (SegmentOf RefPoint)) : Prop :=
  List.Forall₂ (IsRefSegment pose) (polarForm scan) out

end Sys2Proof.Machine
end

