-- ==== Sys2Proof/Safety.lean ====
section
/-! DEFINITION. The terms claims are stated in: the invariants of `spec/40_framesync.md` R119 and `spec/10_state.md` R23,
streams without overflow (R120), and the four anomaly classes of `spec/60_exceptions.md` R205. No anomaly is recorded in
the state (R30): a class is a property of a state and an input. -/

namespace Sys2Proof.Machine

/-- The invariants of `cur` (R119 I1, I2): at most `BUF_CAP` bytes, and only DATA bytes after the first. -/
def bufferOk (cur : List Byte) : Bool :=
  decide (cur.length ≤ Config.bufCap) && cur.tail.all (fun b => !isSync b)

/-- Every field is a multiple of 4 (R23, R142 L3). -/
def multipleOfFour (v : Vec3) : Bool :=
  decide (v.x.toInt % 4 = 0) && decide (v.y.toInt % 4 = 0) && decide (v.z.toInt % 4 = 0)

/-- The invariant of the machine: the buffer is well formed and the vectors hold what Sample14 can give. -/
def State.Inv (s : State) : Bool :=
  bufferOk s.cur && multipleOfFour s.gyro && multipleOfFour s.accel

/-- The overflow guard fires at no byte of the sequence (R120, U14). -/
def neverOverflows : List Byte → List Byte → Bool
  | _, [] => true
  | cur, b :: bs => decide (cur.length ≤ Config.hw.bufBound) && neverOverflows (byteStep cur b).1 bs

/-- The host does nothing at the next step, so the step is the core's. -/
abbrev State.hostQuiet (s : State) : Prop := s.host.head?.join = none

/-- `n` steps of the machine, stopping at the first that is no next state. -/
def runSteps : Nat → State → Host.Outcome State Fault Refusal
  | 0, s => .next s
  | n + 1, s =>
    match step s with
    | .next t => runSteps n t
    | .fault r => .fault r
    | .refused r => .refused r

/-- Two states agree on SensorState (R20). -/
def State.sameSensors (s t : State) : Prop := s.gyro = t.gyro ∧ s.accel = t.accel ∧ s.scan = t.scan

/-- Two states agree on the whole architectural state of R20. -/
def State.sameCore (s t : State) : Prop :=
  s.cur = t.cur ∧ State.sameSensors s t ∧ s.drainOpen = t.drainOpen

/-- Class (a), I/O absence (R201): the poll answers no data. -/
def isIoAbsence (s : State) : Prop := s.poll.1 = none

/-- Class (b), buffer overflow (R202): a byte arrives while the buffer is over the bound. -/
def isOverflow (s : State) : Prop := Config.hw.bufBound < s.cur.length

/-- Class (c), short payload (R203). -/
def isShortFrame (f : Frame) : Prop :=
  (f.opcode = Config.hw.opGyro ∧ f.payload.length < Config.hw.vecMinLen) ∨
  (f.opcode = Config.hw.opAccel ∧ f.payload.length < Config.hw.vecMinLen) ∨
  (f.opcode = Config.hw.opScan ∧ f.payload.length < Config.hw.scanMinLen)

/-- Class (d), unknown opcode (R204). -/
def isUnknownFrame (f : Frame) : Prop :=
  f.opcode ≠ Config.hw.opGyro ∧ f.opcode ≠ Config.hw.opAccel ∧ f.opcode ≠ Config.hw.opScan

end Sys2Proof.Machine
end

