-- ==== Sys2Proof/Certificates/Slice0/Obligations.lean ====
section
/-! DEFINITION. The statements for the provers, each citing the rule of `spec/` it formalises. Literals of the spec are
written as numbers here, so that a statement says what the spec says and not what the configuration record holds. -/

open Sys2Proof Sys2Proof.Machine

/-! ### Reset and the tick control bit -/

/-- R35: the state right after reset. -/
def Obligations.ResetValues : Prop :=
  State.reset.gyro = ⟨0, 0, 0⟩ ∧ State.reset.accel = ⟨0, 0, 0⟩ ∧ (∀ k : ScanIndex, State.reset.scan[k] = 0) ∧
  State.reset.cur = [] ∧ synced State.reset.cur = false ∧ State.reset.drainOpen = false ∧
  ∀ pose : Pose, assemble State.reset.scan pose = []

/-- R230, R231: reset sets every piece of the architectural state at once, whatever the core was doing, and does not touch
the ByteSource. That it leaves the pose, the snapshot and the host's later events is the model's choice (log entry 6). -/
def Obligations.ResetFromAnyState : Prop :=
  ∀ (s : State) (h : List (Option HostEvent)), s.host = some .reset :: h →
    step s = .next { State.reset with pose := s.pose, rx := s.rx, host := h, snapshot := s.snapshot }

/-- R230, R122: with no tick started the machine stays idle, however long it runs and whatever bytes wait. -/
def Obligations.IdleUntilTick : Prop :=
  ∀ (n : Nat) (s : State), s.drainOpen = false → s.host = [] → runSteps n s = .next s

/-- R27: `drain_open` is set when a tick starts, no byte is accepted while it is 0, and it is cleared when the ByteSource
answers no data or a Frame has been emitted. That a tick event takes a step of its own, with a byte on offer too, is the
model's choice (log entry 2), and that on an open drain it does nothing more is an inference (log entry 7). -/
def Obligations.DrainOpenBit : Prop :=
  (∀ (s : State) (h : List (Option HostEvent)), s.host = some .tick :: h →
    step s = .next { s with host := h, drainOpen := true }) ∧
  (∀ s : State, s.hostQuiet → s.drainOpen = false → step s = .next { s with host := s.host.tail }) ∧
  (∀ s : State, s.hostQuiet → s.drainOpen = true → s.rx.head?.join = none →
    ∃ t, step s = .next t ∧ t.drainOpen = false) ∧
  (∀ (s : State) (b : Byte) (rs : List (Option Byte)), s.hostQuiet → s.drainOpen = true → s.rx = some b :: rs →
    ∃ t, step s = .next t ∧ t.rx = rs ∧ t.drainOpen = (byteStep s.cur b).2.isNone)

/-- What the host's events do to the state (R26, R122, R179, R182; log entries 2 and 5). -/
def Obligations.HostEventEffects : Prop :=
  ∀ (s : State) (h : List (Option HostEvent)),
    (∀ p : Pose, s.host = some (.setPose p) :: h → step s = .next { s with host := h, pose := p }) ∧
    (s.host = some .asmStart :: h →
      step s = .next { s with host := h, snapshot := some ⟨s.gyro, s.accel, s.scan, s.pose⟩ })

/-! ### Decoding of bytes and frames -/

/-- R80, R5, R6: bit 7 alone decides the class of a byte, and it is set exactly for the values from 128. -/
def Obligations.ByteClasses : Prop :=
  ∀ b : Byte, (b.getLsbD 7 = true ↔ 128 ≤ b.toNat) ∧ (b.getLsbD 7 = true → decodeByte b = .sync b) ∧
    (b.getLsbD 7 = false → decodeByte b = .data b)

/-- R89, R148: the three assigned opcodes, and every other byte, those below 128 among them. -/
def Obligations.FrameRows : Prop :=
  ∀ p : List Byte, decodeFrame ⟨0x80, p⟩ = .gyro p ∧ decodeFrame ⟨0x81, p⟩ = .accel p ∧
    decodeFrame ⟨0x84, p⟩ = .scan p ∧
    ∀ op : Byte, op ≠ 0x80 → op ≠ 0x81 → op ≠ 0x84 → decodeFrame ⟨op, p⟩ = .unk op p

/-- Words written out from R80, R84, R86: a sanity statement. -/
def Obligations.WrittenWords : Prop :=
  decodeStream [0x80, 0x7F, 0x7F, 0x00, 0x00, 0x01, 0x00, 0x81] =
    .ok (.gyro [0x7F, 0x7F, 0x00, 0x00, 0x01, 0x00], [0x81]) ∧
  decodeStream [0x81, 0x00, 0x40, 0x7F, 0x3F, 0x04, 0x02, 0x80] =
    .ok (.accel [0x00, 0x40, 0x7F, 0x3F, 0x04, 0x02], [0x80]) ∧
  decodeStream [0x90, 0x01, 0x02, 0x03, 0x84] = .ok (.unk 0x90 [0x01, 0x02, 0x03], [0x84]) ∧
  decodeStream [0x84, 0x00, 0xFF] = .ok (.scan [0x00], [0xFF]) ∧
  decodeByte 0xFF = .sync 0xFF ∧ decodeByte 0x7F = .data 0x7F

/-- Decoding inverts encoding, with every operand at every value the encoding admits (R80, R81, R82). -/
def Obligations.DecodeOfEncode : Prop :=
  (∀ (i : Instr) (c : Byte) (rest : List Byte), i.wf = true → i.isFrame = true → 128 ≤ c.toNat →
    decodeStream (encode i ++ c :: rest) = .ok (i, c :: rest)) ∧
  (∀ i : Instr, i.wf = true → i.isFrame = false → ∃ b, encode i = [b] ∧ decodeByte b = i)

/-- R82: what the stream decoder answers is a well-formed instruction, its bytes and the rest are the stream, and a frame
ends exactly where the next SYNC byte stands. -/
def Obligations.DecodedStreamIsEncoded : Prop :=
  ∀ (bs : List Byte) (i : Instr) (rest : List Byte), decodeStream bs = .ok (i, rest) →
    i.wf = true ∧ encode i ++ rest = bs ∧ (i.isFrame = true → ∃ c r, rest = c :: r ∧ 128 ≤ c.toNat)

/-- R82, R118, R234: when the stream decoder refuses, and under which name. -/
def Obligations.StreamRefusals : Prop :=
  ∀ bs : List Byte,
    (decodeStream bs = .error .noBytes ↔ bs = []) ∧
    (decodeStream bs = .error .unterminated ↔
      ∃ op ds, bs = op :: ds ∧ 128 ≤ op.toNat ∧ ∀ d ∈ ds, d.toNat < 128) ∧
    (decodeStream bs = .error .overlong ↔
      ∃ op ds c r, bs = op :: (ds ++ c :: r) ∧ 128 ≤ op.toNat ∧ (∀ d ∈ ds, d.toNat < 128) ∧ 128 ≤ c.toNat ∧
        1000 ≤ ds.length)

/-- When the drain is open and the host is quiet, a step takes the ByteSource's next byte and runs its row; where that
closed the drain, the readers are given the new state (R111, R112, R122, log entry 5). -/
def Obligations.StepRunsDecodedByte : Prop :=
  (∀ (s : State) (b : Byte) (rs : List (Option Byte)), s.hostQuiet → s.drainOpen = true → s.rx = some b :: rs →
    step s = finishByte (exec (decodeByte b) { s with rx := rs, host := s.host.tail })) ∧
  (∀ t : State, finishByte (.next t) =
    .next (if t.drainOpen then t else { t with snapshot := some ⟨t.gyro, t.accel, t.scan, t.pose⟩ }))

/-- When the buffer holds the bytes of a well-formed frame, the step that takes the next SYNC byte runs that frame's row
(R114, R150), with the buffer restarted, the drain closed and the readers given the new state (log entry 5). -/
def Obligations.StepRunsDecodedFrame : Prop :=
  ∀ (s : State) (i : Instr) (c : Byte) (rs : List (Option Byte)), i.wf = true → i.isFrame = true →
    s.hostQuiet → s.drainOpen = true → s.cur = encode i → s.rx = some c :: rs → 128 ≤ c.toNat →
    ∃ t, exec i { s with cur := [c], rx := rs, host := s.host.tail } = .next t ∧
      step s = .next { t with drainOpen := false, snapshot := some ⟨t.gyro, t.accel, t.scan, t.pose⟩ }

/-! ### The synchronizer -/

/-- R113: the guard fires exactly on a buffer longer than 1000 bytes, before the byte is handled; the byte is not lost, a
SYNC byte then opens a frame and emits none. -/
def Obligations.OverflowGuardFires : Prop :=
  ∀ (s : State) (b : Byte),
    (1000 < s.cur.length →
      exec (.data b) s = .next { s with cur := [b] } ∧ exec (.sync b) s = .next { s with cur := [b] }) ∧
    (s.cur.length ≤ 1000 → exec (.data b) s = .next { s with cur := s.cur ++ [b] } ∧
      overflowGuard s.cur = s.cur)

/-- R116: a DATA byte is appended to what the guard leaves, synced or not, and nothing else changes; the buffer reaches
1001 bytes at most. -/
def Obligations.DataByteAppends : Prop :=
  ∀ (s : State) (b : Byte),
    exec (.data b) s = .next { s with cur := (if 1000 < s.cur.length then [] else s.cur) ++ [b] } ∧
    (s.cur.length = 1000 → ∃ t, exec (.data b) s = .next t ∧ t.cur.length = 1001) ∧
    (s.cur.length = 1001 → ∃ t, exec (.data b) s = .next t ∧ t.cur = [b])

/-- R115: a SYNC byte that finds the buffer not synced after the guard restarts it and emits nothing, so the drain goes on;
and the discarded bytes, had they been handed to the decoder, would have changed nothing. -/
def Obligations.SyncOnUnsynced : Prop :=
  (∀ (s : State) (b : Byte),
    (s.cur = [] ∨ (∃ c r, s.cur = c :: r ∧ c.toNat < 128) ∨ 1000 < s.cur.length) →
      exec (.sync b) s = .next { s with cur := [b] }) ∧
  (∀ (s : State) (c : Byte) (r : List Byte), c.toNat < 128 → exec (decodeFrame ⟨c, r⟩) s = .next s)

/-- R114: a SYNC byte that finds the buffer synced emits the buffer as a Frame, whose opcode is the buffer's first byte,
and restarts the buffer with itself; the Frame is decoded and the drain ends (R122, R150). -/
def Obligations.SyncOnSynced : Prop :=
  ∀ (s : State) (b op : Byte) (p : List Byte), s.cur = op :: p → 128 ≤ op.toNat → p.length ≤ 999 → 128 ≤ b.toNat →
    byteStep s.cur b = ([b], some ⟨op, p⟩) ∧
    ∃ t, exec (decodeFrame ⟨op, p⟩) { s with cur := [b] } = .next t ∧
      exec (.sync b) s = .next { t with drainOpen := false }

/-- R201: a poll that answers no data changes nothing of the architectural state but the drain bit. That the step also
records what the readers of the tick are given is the model's choice (log entry 5). -/
def Obligations.NoDataEndsDrain : Prop :=
  ∀ s : State, s.hostQuiet → s.drainOpen = true → s.rx.head?.join = none →
    step s = .next { s with drainOpen := false, rx := s.rx.tail, host := s.host.tail,
                            snapshot := some ⟨s.gyro, s.accel, s.scan, s.pose⟩ }

/-- R117: a poll that answers no data leaves the buffer and SensorState as they are and ends the drain of the tick; and
while no byte arrives a partial frame is kept, across any number of empty polls and ticks: there is no timeout. -/
def Obligations.PartialFrameIsKept : Prop :=
  (∀ s : State, s.hostQuiet → s.drainOpen = true → s.rx.head?.join = none →
    ∃ t, step s = .next t ∧ t.cur = s.cur ∧ s.sameSensors t ∧ t.drainOpen = false) ∧
  (∀ (n : Nat) (s : State), (∀ r ∈ s.rx, r = none) → some HostEvent.reset ∉ s.host →
    ∃ t, runSteps n s = .next t ∧ t.cur = s.cur ∧ s.sameSensors t)

/-- R118: every emitted Frame has 1 to 1000 bytes, a frame with 1000 or more DATA bytes is never delivered, and a scan
frame of 720 payload bytes fits. -/
def Obligations.FrameBounds : Prop :=
  (∀ (cur : List Byte) (b : Byte) (f : Frame), (byteStep cur b).2 = some f →
    1 ≤ (f.opcode :: f.payload).length ∧ (f.opcode :: f.payload).length ≤ 1000 ∧ f.payload.length ≤ 999) ∧
  (∀ (op c : Byte) (ds : List Byte), 128 ≤ op.toNat → (∀ d ∈ ds, d.toNat < 128) → 1000 ≤ ds.length →
    (framesOf [op] (ds ++ [c])).2 = []) ∧
  (∀ (op c : Byte) (ds : List Byte), 128 ≤ op.toNat → (∀ d ∈ ds, d.toNat < 128) → ds.length = 720 → 128 ≤ c.toNat →
    (framesOf [op] (ds ++ [c])).2 = [⟨op, ds⟩])

/-- R119: the invariants I1 to I4 of the buffer, at reset and after every ByteStep, and what they give of an emitted
Frame. -/
def Obligations.BufferInvariants : Prop :=
  (∀ (cur : List Byte) (b : Byte), (∀ d ∈ cur.tail, d.toNat < 128) →
    (byteStep cur b).1.length ≤ 1001 ∧ (∀ d ∈ (byteStep cur b).1.tail, d.toNat < 128) ∧ (byteStep cur b).1 ≠ [] ∧
    ∀ f, (byteStep cur b).2 = some f → ∀ d ∈ f.payload, d.toNat ≤ 127) ∧
  (State.reset.cur.length ≤ 1001 ∧ ∀ d ∈ State.reset.cur.tail, d.toNat < 128) ∧
  (∀ (op c : Byte) (p ds : List Byte), 128 ≤ op.toNat → (∀ d ∈ ds, d.toNat < 128) →
    ∀ f ∈ (framesOf (op :: p) (ds ++ [c])).2, f.opcode = op)

/-- R120: how many Frames a byte sequence yields from reset. A SYNC byte emits a Frame exactly when an earlier SYNC byte
exists and the guard fires at no byte after it, the present one included. -/
def Obligations.FrameCount : Prop :=
  (∀ bs : List Byte, (∀ b ∈ bs, b.toNat < 128) → (framesOf [] bs).2 = []) ∧
  (∀ bs : List Byte, neverOverflows [] bs = true →
    (framesOf [] bs).2.length = max 0 (bs.countP isSync - 1)) ∧
  (∀ (ds : List Byte) (b : Byte), (∀ d ∈ ds, d.toNat < 128) → (framesOf [] (ds ++ [b])).2 = []) ∧
  (∀ (before ds : List Byte) (op b : Byte), 128 ≤ op.toNat → (∀ d ∈ ds, d.toNat < 128) → 128 ≤ b.toNat →
    (framesOf [] (before ++ op :: ds ++ [b])).2 =
      (framesOf [] (before ++ [op])).2 ++ if neverOverflows [op] (ds ++ [b]) then [⟨op, ds⟩] else [])

/-- R121: the opcodes of the Frames are SYNC bytes of the stream in their order, the last one not among them, whose frame is
still open; without overflow they are all the others, so that each is the byte that ended the Frame before it; and no Frame
is emitted by a DATA byte, whatever length the payload has reached. -/
def Obligations.OneBehind : Prop :=
  (∀ bs : List Byte, neverOverflows [] bs = true →
    (framesOf [] bs).2.map Frame.opcode = (bs.filter isSync).dropLast) ∧
  (∀ bs : List Byte, ((framesOf [] bs).2.map Frame.opcode).Sublist (bs.filter isSync).dropLast) ∧
  (∀ (cur : List Byte) (d : Byte), d.toNat < 128 → (byteStep cur d).2 = none)

/-- R209: from any buffer the next SYNC byte resynchronises: the frame it opens is delivered. -/
def Obligations.NextSyncRecovers : Prop :=
  ∀ (cur ds : List Byte) (op c : Byte), 128 ≤ op.toNat → (∀ d ∈ ds, d.toNat < 128) → ds.length ≤ 999 →
    128 ≤ c.toNat → ∃ fs, fs.length ≤ 1 ∧ (framesOf cur (op :: ds ++ [c])).2 = fs ++ [⟨op, ds⟩]

/-- R231, R235: bytes before the first SYNC byte after a reset yield nothing and hide nothing. -/
def Obligations.BytesBeforeFirstSync : Prop :=
  ∀ ds rest : List Byte, (∀ d ∈ ds, d.toNat < 128) → (framesOf [] (ds ++ rest)).2 = (framesOf [] rest).2

/-- R234: while no SYNC byte comes, no tick changes SensorState, whatever frame is open. -/
def Obligations.LastFrameWaits : Prop :=
  ∀ (n : Nat) (s : State), (∀ d ∈ bytesOf s.rx, d.toNat < 128) → (ticks n s).sameSensors s

/-- R21: the three things that can happen to the buffer, by a step. -/
def Obligations.BufferChanges : Prop :=
  ∀ s t : State, step s = .next t →
    t.cur = s.cur ∨ (s.host.head?.join = some .reset ∧ t.cur = []) ∨
    ∃ b rs, s.hostQuiet ∧ s.drainOpen = true ∧ s.rx = some b :: rs ∧
      (t.cur = [b] ∨ (b.toNat < 128 ∧ t.cur = s.cur ++ [b]))

/-! ### The decoder -/

/-- R141: the bits of a Sample14 and the number they spell. -/
def Obligations.SampleFourteenPlacement : Prop :=
  (∀ lsb msb : Byte,
    (sample14 lsb msb).toNat = ((msb.toNat % 128) <<< 9 ||| (lsb.toNat % 128) <<< 2) ∧
    (sample14 lsb msb).toNat ≤ 0xFFFC ∧
    (sample14 lsb msb).toInt = if (sample14 lsb msb).toNat < 32768 then ((sample14 lsb msb).toNat : Int)
      else ((sample14 lsb msb).toNat : Int) - 65536) ∧
  (sample14 0x00 0x00).toInt = 0 ∧ (sample14 0x7F 0x7F).toInt = -4

/-- R142: the laws L1, L2, L3 and L5 of Sample14 (L4 says that nothing can overflow). -/
def Obligations.SampleFourteenLaws : Prop :=
  (∀ lsb msb : Byte,
    let q := 128 * (msb.toNat % 128) + lsb.toNat % 128
    (sample14 lsb msb).toInt = 4 * (if q < 8192 then (q : Int) else (q : Int) - 16384) ∧
    ((sample14 lsb msb).toInt < 0 ↔ msb.getLsbD 6 = true) ∧
    (sample14 lsb msb).toInt % 4 = 0 ∧ -32768 ≤ (sample14 lsb msb).toInt ∧ (sample14 lsb msb).toInt ≤ 32764) ∧
  (∀ lsb msb lsb' msb' : Byte, sample14 lsb msb = sample14 lsb' msb' →
    lsb.toNat % 128 = lsb'.toNat % 128 ∧ msb.toNat % 128 = msb'.toNat % 128) ∧
  (sample14 0x00 0x40).toInt = -32768 ∧ (sample14 0x7F 0x3F).toInt = 32764 ∧
  (∀ b : Byte, b.toNat < 128 → (sample14 b 0).toInt = 4 * (b.toNat : Int) ∧
    (sample14 0 b).toInt = if b.toNat < 64 then 512 * (b.toNat : Int) else 512 * (b.toNat : Int) - 65536)

/-- R143: Range14 is a plain base-128 number, a bijection between pairs of 7-bit values and 0..16383. -/
def Obligations.RangeFourteenValue : Prop :=
  (∀ lsb msb : Byte, (range14 lsb msb).toNat = ((msb.toNat % 128) <<< 7 ||| lsb.toNat % 128)) ∧
  (∀ r : Range, ∃ lsb msb : Byte, lsb.toNat < 128 ∧ msb.toNat < 128 ∧ range14 lsb msb = r ∧
    ∀ lsb' msb' : Byte, lsb'.toNat < 128 → msb'.toNat < 128 → range14 lsb' msb' = r → lsb' = lsb ∧ msb' = msb) ∧
  range14 0x00 0x00 = 0 ∧ range14 0x7F 0x7F = 16383 ∧ range14 0x68 0x07 = 1000

/-- R94: the encoders are the inverses of the two decode functions. -/
def Obligations.EncodersInvertDecoders : Prop :=
  (∀ v : Int, v % 4 = 0 → -32768 ≤ v → v ≤ 32764 →
    ∃ lsb msb : Byte, enc14s v = some [lsb, msb] ∧ lsb.toNat < 128 ∧ msb.toNat < 128 ∧ (sample14 lsb msb).toInt = v) ∧
  (∀ v : Int, ¬(v % 4 = 0 ∧ -32768 ≤ v ∧ v ≤ 32764) → enc14s v = none) ∧
  (∀ r : Range, ∃ lsb msb : Byte, enc14u r = [lsb, msb] ∧ lsb.toNat < 128 ∧ msb.toNat < 128 ∧ range14 lsb msb = r) ∧
  enc14s (-4) = some [0x7F, 0x7F] ∧ enc14s 4 = some [0x01, 0x00] ∧ enc14s 1040 = some [0x04, 0x02] ∧
  enc14s (-32768) = some [0x00, 0x40] ∧ enc14s 32764 = some [0x7F, 0x3F] ∧
  enc14u 1000 = [0x68, 0x07] ∧ enc14u 500 = [0x74, 0x03] ∧ enc14u 16383 = [0x7F, 0x7F]

/-- R144: a gyro frame of at least six payload bytes replaces `gyro` whole and touches nothing else, whatever surplus
follows; a shorter one changes nothing. -/
def Obligations.GyroFrame : Prop :=
  (∀ (s : State) (xl xm yl ym zl zm : Byte) (rest : List Byte),
    exec (.gyro (xl :: xm :: yl :: ym :: zl :: zm :: rest)) s =
      .next { s with gyro := ⟨sample14 xl xm, sample14 yl ym, sample14 zl zm⟩ }) ∧
  (∀ (s : State) (p : List Byte), p.length < 6 → exec (.gyro p) s = .next s) ∧
  (∀ s : State, exec (.gyro [0x7F, 0x7F, 0x00, 0x00, 0x01, 0x00]) s =
    .next { s with gyro := ⟨BitVec.ofInt 16 (-4), BitVec.ofInt 16 0, BitVec.ofInt 16 4⟩ })

/-- R145: an accel frame does to `accel` what a gyro frame does to `gyro`. -/
def Obligations.AccelFrame : Prop :=
  (∀ (s : State) (xl xm yl ym zl zm : Byte) (rest : List Byte),
    exec (.accel (xl :: xm :: yl :: ym :: zl :: zm :: rest)) s =
      .next { s with accel := ⟨sample14 xl xm, sample14 yl ym, sample14 zl zm⟩ }) ∧
  (∀ (s : State) (p : List Byte), p.length < 6 → exec (.accel p) s = .next s) ∧
  (∀ s : State, exec (.accel [0x00, 0x40, 0x7F, 0x3F, 0x04, 0x02]) s =
    .next { s with accel := ⟨BitVec.ofInt 16 (-32768), BitVec.ofInt 16 32764, BitVec.ofInt 16 1040⟩ })

/-- R146: a scan frame of at least 720 payload bytes puts sample `i` at index `(360 - i) mod 360`, for every `i`, and
touches nothing else; a shorter one changes nothing. -/
def Obligations.ScanFrame : Prop :=
  (∀ (s : State) (p : List Byte), 720 ≤ p.length →
    ∃ w : RangeScan, exec (.scan p) s = .next { s with scan := w } ∧
      ∀ i : Nat, i < 360 → ∃ lsb msb, p[2 * i]? = some lsb ∧ p[2 * i + 1]? = some msb ∧
        w[(360 - i) % 360]? = some (range14 lsb msb)) ∧
  (∀ (s : State) (p : List Byte), p.length < 720 → exec (.scan p) s = .next s) ∧
  (∀ s : State, ∃ w : RangeScan,
    exec (.scan ((List.range 360).flatMap fun i => enc14u (BitVec.ofNat 14 (1000 + i)))) s = .next { s with scan := w } ∧
      w[0] = 1000 ∧ w[1] = 1359 ∧ w[2] = 1358 ∧ w[359] = 1001)

/-- R147: the index map is a bijection, its own inverse, so a scan frame writes every entry, and entry `k` receives sample
`(360 - k) mod 360`. -/
def Obligations.ScanIndexBijection : Prop :=
  Function.Bijective Config.hw.scanIndex ∧
  (∀ i : ScanIndex, (Config.hw.scanIndex i).val = (360 - i.val) % 360 ∧ Config.hw.scanIndex (Config.hw.scanIndex i) = i) ∧
  (∀ (s : State) (p : List Byte), 720 ≤ p.length → ∃ t, exec (.scan p) s = .next t ∧
    ∀ k : ScanIndex, ∃ lsb msb, p[2 * ((360 - k.val) % 360)]? = some lsb ∧
      p[2 * ((360 - k.val) % 360) + 1]? = some msb ∧ t.scan[k] = range14 lsb msb)

/-- R148: a frame of any other opcode changes nothing, whatever its payload; it still uses up its tick's one frame. -/
def Obligations.UnknownFrame : Prop :=
  (∀ (s : State) (op : Byte) (p : List Byte), exec (.unk op p) s = .next s) ∧
  (∀ (s : State) (op b : Byte) (p : List Byte), op ≠ 0x80 → op ≠ 0x81 → op ≠ 0x84 →
    exec (decodeFrame ⟨op, p⟩) s = .next s ∧
    (s.cur = op :: p → 128 ≤ op.toNat → p.length ≤ 999 →
      exec (.sync b) s = .next { s with cur := [b], drainOpen := false }))

/-- R151: payload bytes beyond those the format reads take no part in the result. -/
def Obligations.SurplusIsIgnored : Prop :=
  ∀ (s : State) (p q : List Byte),
    (6 ≤ p.length → 6 ≤ q.length → p.take 6 = q.take 6 →
      exec (.gyro p) s = exec (.gyro q) s ∧ exec (.accel p) s = exec (.accel q) s) ∧
    (720 ≤ p.length → 720 ≤ q.length → p.take 720 = q.take 720 → exec (.scan p) s = exec (.scan q) s)

/-- R205: the anomaly classes (b), (c) and (d): what each writes, and that SensorState is unchanged (class (a) is
`NoDataEndsDrain`). -/
def Obligations.AnomaliesAreAbsorbed : Prop :=
  (∀ (s : State) (b : Byte), isOverflow s → exec (decodeByte b) s = .next { s with cur := [b] }) ∧
  (∀ (s : State) (f : Frame), isShortFrame f ∨ isUnknownFrame f →
    exec (decodeFrame f) s = .next s ∧
    ∀ b : Byte, s.cur = f.opcode :: f.payload → 128 ≤ f.opcode.toNat → f.payload.length ≤ 999 →
      exec (.sync b) s = .next { s with cur := [b], drainOpen := false })

/-! ### The tick -/

/-- R122: a tick takes the answers up to the first that is no data or completes a Frame, at most one Frame is decoded, the
drain is closed after it, and the assembler then works on the state as updated. -/
def Obligations.TickDrainsToOneFrame : Prop :=
  ∀ s : State, ∃ taken : List (Option Byte), s.rx = taken ++ (tick s).1.rx ∧ (tick s).1.drainOpen = false ∧
    (tick s).1.cur = (framesOf s.cur (bytesOf taken)).1 ∧
    (tick s).1.sameSensors (decodeAll (framesOf s.cur (bytesOf taken)).2 s) ∧
    (tick s).2 = assemble (tick s).1.scan s.pose ∧
    (((framesOf s.cur (bytesOf taken)).2 = [] ∧
        ((none ∉ taken ∧ (tick s).1.rx = []) ∨ ∃ bs, taken = bs ++ [none] ∧ none ∉ bs)) ∨
     ∃ bs b f, taken = bs ++ [some b] ∧ none ∉ bs ∧ (framesOf s.cur (bytesOf bs)).2 = [] ∧
        (framesOf s.cur (bytesOf taken)).2 = [f])

/-- R123: any number of ticks decodes what the plain fold of ByteStep over the bytes they took decodes, so two runs that
are given the same bytes in whatever ticks end with the same buffer and the same SensorState. -/
def Obligations.TickPartitionIsInvisible : Prop :=
  (∀ (n : Nat) (s : State), ∃ taken : List (Option Byte), s.rx = taken ++ (ticks n s).rx ∧
    (ticks n s).cur = (foldBytes (bytesOf taken) s).cur ∧ (ticks n s).sameSensors (foldBytes (bytesOf taken) s)) ∧
  (∀ (n m : Nat) (s t : State), s.cur = t.cur → s.sameSensors t → bytesOf s.rx = bytesOf t.rx →
    (ticks n s).rx = [] → (ticks m t).rx = [] →
    (ticks n s).cur = (ticks m t).cur ∧ (ticks n s).sameSensors (ticks m t))

/-- R237: of a backlog the first `n` ticks apply the first `n` Frames, one each, in order, and the assembler of each tick
sees SensorState after its Frame. The first clause is for a backlog whose `n` Frames are complete, whatever the ByteSource
answers after it; the second for any number of ticks while no answer to come is no data. -/
def Obligations.BacklogTakesOneTickPerFrame : Prop :=
  (∀ (n : Nat) (s : State) (bs : List Byte) (rs : List (Option Byte)), s.rx = bs.map some ++ rs →
    n ≤ (framesOf s.cur bs).2.length →
    (ticks n s).sameSensors (decodeAll ((framesOf s.cur bs).2.take n) s) ∧
    (tick (ticks n s)).2 = assemble (ticks (n + 1) s).scan s.pose) ∧
  (∀ (n : Nat) (s : State), none ∉ s.rx →
    (ticks n s).sameSensors (decodeAll ((framesOf s.cur (bytesOf s.rx)).2.take n) s) ∧
    (tick (ticks n s)).2 = assemble (ticks (n + 1) s).scan s.pose)

/-- The machine's steps make the composite Tick of R122 (D4): from a tick event, some number of steps ends in its state.
The host's list, and the step a tick event takes, are the model's own (log entry 2), and so is the snapshot (log entry 5). -/
def Obligations.StepsMakeATick : Prop :=
  ∀ s : State, s.host = [some .tick] → ∃ n, runSteps n s = .next (tick { s with host := [] }).1

/-- R238: DATA bytes that complete no Frame never end the drain, so the readers do not run. That they do not run is said by
the field `snapshot`, which is the model's own (log entry 5). -/
def Obligations.DataBytesKeepDrainOpen : Prop :=
  ∀ (s : State) (ds : List Byte) (rs : List (Option Byte)), s.host = [] → s.drainOpen = true →
    s.rx = ds.map some ++ rs → (∀ d ∈ ds, d.toNat < 128) →
    ∃ t, runSteps ds.length s = .next t ∧ t.drainOpen = true ∧ t.rx = rs ∧ t.snapshot = s.snapshot ∧ t.sameSensors s

/-- `rx_take` (R124, an interface of the spec's own, D8): with the host quiet a step takes the byte on offer exactly when
the port says so. Where the byte closed the drain, `afterByte` gives the readers the new state in the field `snapshot`,
which is the model's own (log entry 5). -/
def Obligations.TakePort : Prop :=
  ∀ s : State, s.hostQuiet →
    (s.rxTake = true → ∃ b, s.rx = some b :: s.rx.tail ∧ step s =
      .next (afterByte (acceptByte (byteStep s.cur b) { s with rx := s.rx.tail, host := s.host.tail }))) ∧
    (s.rxTake = false → ∀ b rs, s.rx = some b :: rs → step s = .next { s with host := s.host.tail })

/-! ### The assembler -/

/-- R172: no segment where both samples are missing, and none at all of an empty scan. -/
def Obligations.BothMissingNoSegment : Prop :=
  (∀ (scan : RangeScan) (i : ScanIndex), scan[i] = 0 → scan[partner i] = 0 → ∀ q ∈ polarForm scan, q.i ≠ i) ∧
  (∀ (scan : RangeScan) (pose : Pose), (∀ k : ScanIndex, scan[k] = 0) → assemble scan pose = [])

/-- R173: a lone missing sample borrows its neighbour's distance, and a segment is always emitted. -/
def Obligations.LoneMissingBorrows : Prop :=
  ∀ (scan : RangeScan) (i : ScanIndex),
    (scan[i] = 0 → scan[partner i] ≠ 0 → ⟨i, partner i, scan[partner i], scan[partner i]⟩ ∈ polarForm scan) ∧
    (scan[i] ≠ 0 → scan[partner i] = 0 → ⟨i, partner i, scan[i], scan[i]⟩ ∈ polarForm scan)

/-- R174: of two present samples a segment is emitted exactly when they differ by at most 500, in either direction. -/
def Obligations.DiscontinuityIsSkipped : Prop :=
  ∀ (scan : RangeScan) (i : ScanIndex), scan[i] ≠ 0 → scan[partner i] ≠ 0 →
    (500 < |((scan[i]).toNat : Int) - ((scan[partner i]).toNat : Int)| → ∀ q ∈ polarForm scan, q.i ≠ i) ∧
    (|((scan[i]).toNat : Int) - ((scan[partner i]).toNat : Int)| ≤ 500 →
      ⟨i, partner i, scan[i], scan[partner i]⟩ ∈ polarForm scan)

/-- R178: the facts of the polar form, and that Assemble is that list mapped through the placement. -/
def Obligations.PolarFormFacts : Prop :=
  (∀ (scan : RangeScan), ∀ q ∈ polarForm scan,
    q.j.val = (q.i.val + 1) % 360 ∧ 1 ≤ q.d1.toNat ∧ q.d1.toNat ≤ 16383 ∧ 1 ≤ q.d2.toNat ∧ q.d2.toNat ≤ 16383 ∧
    |(q.d1.toNat : Int) - (q.d2.toNat : Int)| ≤ 500 ∧
    (q.d1 = scan[q.i] ∨ (scan[q.i] = 0 ∧ q.d1 = scan[q.j])) ∧
    (q.d2 = scan[q.j] ∨ (scan[q.j] = 0 ∧ q.d2 = scan[q.i]))) ∧
  (∀ (scan : RangeScan) (pose : Pose), assemble scan pose =
    (polarForm scan).map fun q => ⟨Config.place pose q.i q.d1, Config.place pose q.j q.d2⟩)

/-- R177: at most one segment per index, in increasing order of the index; none of an empty scan and 360 of a scan whose
entries are equal and present; and neighbouring segments share their point. -/
def Obligations.SegmentOrder : Prop :=
  (∀ scan : RangeScan, (polarForm scan).Pairwise (fun q r => q.i < r.i) ∧ (polarForm scan).length ≤ 360) ∧
  (∀ scan : RangeScan, (∀ k : ScanIndex, scan[k] = 0) → polarForm scan = []) ∧
  (∀ (scan : RangeScan) (d : Range), d ≠ 0 → (∀ k : ScanIndex, scan[k] = d) → (polarForm scan).length = 360) ∧
  (∀ (scan : RangeScan) (pose : Pose), ∀ q ∈ polarForm scan, ∀ r ∈ polarForm scan, r.i = q.j → scan[q.j] ≠ 0 →
    (placePair (Config.place pose) q).stop = (placePair (Config.place pose) r).start)

/-- R182, R178: the segment stream shows at each index what Assemble emits there, in order. -/
def Obligations.SegmentStream : Prop :=
  ∀ v : Snapshot, (List.finRange 360).filterMap (fun i => (v.segAt i).map Prod.snd) = v.segments ∧
    ∀ i j seg, v.segAt i = some (j, seg) → j = i

/-- R175, R9, R176 (a): the reference endpoint exists and is one, is periodic in the heading, closes the circle, and takes
the exact values of the vectors Q1, Q2 and Q10. -/
def Obligations.ReferencePlacement : Prop :=
  (∀ (pose : RefPose) (k : ScanIndex) (d : Range), ∃! p : RefPoint, IsRefPoint pose k d p) ∧
  (∀ (pose : RefPose) (k : ScanIndex) (d : Range) (p : RefPoint),
    IsRefPoint { pose with heading := pose.heading + 360 } k d p ↔ IsRefPoint pose k d p) ∧
  (∀ (pose : RefPose) (d : Range) (p : RefPoint), IsRefPoint pose 0 d p ↔
    p.x = pose.x + (d.toNat : ℝ) * Real.cos ((pose.heading + 360) * Real.pi / 180) ∧
    p.y = pose.y + (d.toNat : ℝ) * Real.sin ((pose.heading + 360) * Real.pi / 180)) ∧
  IsRefPoint ⟨0, 0, 0⟩ 0 1000 ⟨1000, 0⟩ ∧ IsRefPoint ⟨0, 0, 0⟩ 90 3000 ⟨0, 3000⟩ ∧
  IsRefPoint ⟨100, -50, 90⟩ 90 3000 ⟨-2900, -50⟩

/-- R170, R175, R176 (a): every scan and real pose has exactly one reference assembly. It has one segment for each element
of the polar form, and the `n`-th runs from the point of R175 for the `n`-th element's `i` and `d1` to that for its `j` and
`d2`. In particular two present adjacent samples that differ by at most 500 are joined as they stand, and a lone missing
one lies at its neighbour's distance. The relation over the reals is the model's form of the reference (log entry 12). -/
def Obligations.ReferenceAssembly : Prop :=
  ∀ (scan : RangeScan) (pose : RefPose), ∃ out, IsRefAssembly scan pose out ∧
    (∀ out', IsRefAssembly scan pose out' → out' = out) ∧
    out.length = (polarForm scan).length ∧
    (∀ (n : Nat) (q : Polar) (seg : SegmentOf RefPoint), (polarForm scan)[n]? = some q → out[n]? = some seg →
      seg.start.x = pose.x + (q.d1.toNat : ℝ) * Real.cos ((pose.heading + (q.i.val : ℝ)) * Real.pi / 180) ∧
      seg.start.y = pose.y + (q.d1.toNat : ℝ) * Real.sin ((pose.heading + (q.i.val : ℝ)) * Real.pi / 180) ∧
      seg.stop.x = pose.x + (q.d2.toNat : ℝ) * Real.cos ((pose.heading + (q.j.val : ℝ)) * Real.pi / 180) ∧
      seg.stop.y = pose.y + (q.d2.toNat : ℝ) * Real.sin ((pose.heading + (q.j.val : ℝ)) * Real.pi / 180)) ∧
    ∀ (i j : ScanIndex) (d1 d2 : Range), j.val = (i.val + 1) % 360 →
      ((scan[i] ≠ 0 ∧ scan[j] ≠ 0 ∧ |((scan[i]).toNat : Int) - ((scan[j]).toNat : Int)| ≤ 500 ∧
          d1 = scan[i] ∧ d2 = scan[j]) ∨
        (scan[i] = 0 ∧ scan[j] ≠ 0 ∧ d1 = scan[j] ∧ d2 = scan[j]) ∨
        (scan[i] ≠ 0 ∧ scan[j] = 0 ∧ d1 = scan[i] ∧ d2 = scan[i])) →
      ∃ seg ∈ out,
        seg.start.x = pose.x + (d1.toNat : ℝ) * Real.cos ((pose.heading + (i.val : ℝ)) * Real.pi / 180) ∧
        seg.start.y = pose.y + (d1.toNat : ℝ) * Real.sin ((pose.heading + (i.val : ℝ)) * Real.pi / 180) ∧
        seg.stop.x = pose.x + (d2.toNat : ℝ) * Real.cos ((pose.heading + (j.val : ℝ)) * Real.pi / 180) ∧
        seg.stop.y = pose.y + (d2.toNat : ℝ) * Real.sin ((pose.heading + (j.val : ℝ)) * Real.pi / 180)

/-! ### The whole machine -/

/-- R200: nothing is raised: every step and every instruction, in every state, answers a next state. -/
def Obligations.NothingIsRaised : Prop :=
  (∀ s : State, ∃ t, step s = .next t) ∧ ∀ (i : Instr) (s : State), ∃ t, exec i s = .next t

/-- R36, R56, R149: but for reset, SensorState changes only in a step that takes a SYNC byte on a synced buffer within the
bound, whose Frame has an assigned opcode and the length its format requires; and then one object changes and the other two
do not. -/
def Obligations.SensorStateOwnership : Prop :=
  ∀ s t : State, step s = .next t → s.host.head?.join ≠ some .reset → ¬ s.sameSensors t →
    ∃ b rs op p, s.drainOpen = true ∧ s.rx = some b :: rs ∧ 128 ≤ b.toNat ∧ s.cur = op :: p ∧ p.length ≤ 999 ∧
      ((op = 0x80 ∧ 6 ≤ p.length ∧ t.accel = s.accel ∧ t.scan = s.scan) ∨
       (op = 0x81 ∧ 6 ≤ p.length ∧ t.gyro = s.gyro ∧ t.scan = s.scan) ∨
       (op = 0x84 ∧ 720 ≤ p.length ∧ t.gyro = s.gyro ∧ t.accel = s.accel))

/-- R26, R57: the pose and what the readers were given reach nothing of the architectural state, nor the input taken. -/
def Obligations.PoseDoesNotReachTheCore : Prop :=
  ∀ (s : State) (p : Pose) (v : Option Snapshot), ∃ t t',
    step s = .next t ∧ step { s with pose := p, snapshot := v } = .next t' ∧
    t.sameCore t' ∧ t.rx = t'.rx ∧ t.host = t'.host

/-- R119, R23: a step keeps the invariant: the buffer within its capacity with DATA bytes after its first, and every vector
field a multiple of 4. -/
def Obligations.StepKeepsTheBufferAndVectors : Prop :=
  ∀ s t : State, s.Inv = true → step s = .next t → t.Inv = true

/-- R35, R119, R23: that invariant holds at reset, and says what it is meant to say. -/
def Obligations.ResetMeetsBufferAndVectors : Prop :=
  State.reset.Inv = true ∧
  ∀ s : State, s.Inv = true ↔
    (s.cur.length ≤ 1001 ∧ (∀ d ∈ s.cur.tail, d.toNat < 128) ∧
      s.gyro.x.toInt % 4 = 0 ∧ s.gyro.y.toInt % 4 = 0 ∧ s.gyro.z.toInt % 4 = 0 ∧
      s.accel.x.toInt % 4 = 0 ∧ s.accel.y.toInt % 4 = 0 ∧ s.accel.z.toInt % 4 = 0)
end

