-- ==== Sys2Proof/Laws/Config.lean ====
section
/-! SUPPORT. The values of the configuration record (`spec/00_scope.md` R5), for `simp`: proofs that need a literal get it
from here, and the others leave the parameter as it is (U7). -/

namespace Sys2Proof

theorem Config.hw_toWidths : Config.hw.toWidths = Config.widths := rfl
theorem Config.widths_byteW : Config.widths.byteW = 8 := rfl
theorem Config.widths_sampleW : Config.widths.sampleW = 16 := rfl
theorem Config.widths_rangeW : Config.widths.rangeW = 14 := rfl
theorem Config.widths_scanN : Config.widths.scanN = 360 := rfl
theorem Config.hw_syncMin : Config.hw.syncMin = 128 := rfl
theorem Config.hw_bufBound : Config.hw.bufBound = 1000 := rfl
theorem Config.hw_opGyro : Config.hw.opGyro = 128 := rfl
theorem Config.hw_opAccel : Config.hw.opAccel = 129 := rfl
theorem Config.hw_opScan : Config.hw.opScan = 132 := rfl
theorem Config.hw_vecMinLen : Config.hw.vecMinLen = 6 := rfl
theorem Config.hw_scanMinLen : Config.hw.scanMinLen = 720 := rfl
theorem Config.hw_s14ShiftLsb : Config.hw.s14ShiftLsb = 2 := rfl
theorem Config.hw_s14ShiftMsb : Config.hw.s14ShiftMsb = 9 := rfl
theorem Config.hw_r14ShiftMsb : Config.hw.r14ShiftMsb = 7 := rfl
theorem Config.hw_noReturn : Config.hw.noReturn = 0 := rfl
theorem Config.hw_discMm : Config.hw.discMm = 500 := rfl
theorem Config.hw_maxPayload : Config.maxPayload = 999 := rfl
theorem Config.hw_bufCap : Config.bufCap = 1001 := rfl

/-- The bounds of the data types in numbers (R5). -/
theorem byte_lt (b : Byte) : b.toNat < 256 := b.isLt
theorem sample_lt (v : Sample) : v.toNat < 65536 := v.isLt
theorem range_lt (r : Range) : r.toNat < 16384 := r.isLt
theorem scanIndex_lt (k : ScanIndex) : k.val < 360 := k.isLt

/-- The index map in numbers (R146). -/
theorem Config.hw_scanIndex_val (i : ScanIndex) : (Config.hw.scanIndex i).val = (360 - i.val) % 360 := rfl

end Sys2Proof
end

