-- ==== Sys2Proof/Laws/Assembler.lean ====
section
/-! SUPPORT. The filter stage said once: what it answers at an index, and which elements the polar form has. -/

namespace Sys2Proof.Machine

theorem partner_val (i : ScanIndex) : (partner i).val = (i.val + 1) % 360 := rfl

/-- Both missing: no pair (R172). -/
theorem pairAt_both_missing {scan : RangeScan} {i : ScanIndex} (h1 : scan[i] = Config.hw.noReturn)
    (h2 : scan[partner i] = Config.hw.noReturn) : pairAt scan i = none := by
  simp only [pairAt, h1, h2, and_self, if_true]

/-- Whatever the filter stage answers at an index, it answers for that index and its partner. -/
theorem pairAt_indices {scan : RangeScan} {i : ScanIndex} {q : Polar} (h : pairAt scan i = some q) :
    q.i = i ∧ q.j = partner i := by
  simp only [pairAt] at h
  split_ifs at h
  simp only [Option.some.injEq] at h
  subst h
  exact ⟨rfl, rfl⟩

/-- Everything the filter stage can answer at an index (R172, R173, R174). -/
theorem pairAt_eq_some {scan : RangeScan} {i : ScanIndex} {q : Polar} (h : pairAt scan i = some q) :
    ¬(scan[i] = Config.hw.noReturn ∧ scan[partner i] = Config.hw.noReturn) ∧
    (q.d1, q.d2) = borrow scan[i] scan[partner i] ∧ distanceGap q.d1 q.d2 ≤ Config.hw.discMm := by
  simp only [pairAt] at h
  split_ifs at h with h1 h2
  simp only [Option.some.injEq] at h
  subst h
  exact ⟨h1, rfl, Nat.le_of_not_lt h2⟩

/-- The gap of two distances is the absolute value of their difference (R174). -/
theorem distanceGap_cast (d1 d2 : Range) : (distanceGap d1 d2 : Int) = |(d1.toNat : Int) - (d2.toNat : Int)| :=
  Int.natCast_natAbs _

/-- The elements of the polar form are the pairs the filter stage answers. -/
theorem mem_polarForm {scan : RangeScan} {q : Polar} : q ∈ polarForm scan ↔ pairAt scan q.i = some q := by
  constructor
  · intro h
    obtain ⟨i, -, hi⟩ := List.mem_filterMap.mp h
    rwa [(pairAt_indices hi).1]
  · exact fun h => List.mem_filterMap.mpr ⟨q.i, List.mem_finRange _, h⟩

end Sys2Proof.Machine
end

