-- ==== Sys2Proof/Laws/Decode.lean ====
section
/-! SUPPORT. The byte classes, the rows of a Frame, and the run of DATA bytes that ends a frame. -/

namespace Sys2Proof

/-- The two readings of bit 7, by value and by pattern, are one (R5, R6, R80). -/
theorem isSync_eq_hasSyncPattern (b : Byte) : isSync b = hasSyncPattern b := by
  revert b; decide

/-- A byte is a DATA byte iff it is not a SYNC byte (R80). -/
theorem hasDataPattern_eq_not_isSync (b : Byte) : hasDataPattern b = !isSync b := by
  rw [isSync_eq_hasSyncPattern]; rfl

theorem isSync_iff (b : Byte) : isSync b = true ↔ 128 ≤ b.toNat := decide_eq_true_iff

theorem not_isSync_iff (b : Byte) : isSync b = false ↔ b.toNat < 128 :=
  decide_eq_false_iff_not.trans Nat.not_le

theorem decodeByte_of_sync {b : Byte} (h : isSync b = true) : decodeByte b = .sync b := by simp [decodeByte, h]

theorem decodeByte_of_data {b : Byte} (h : isSync b = false) : decodeByte b = .data b := by simp [decodeByte, h]

/-- What `decodeFrame` answers, once and for all (R89). -/
theorem decodeFrame_cases (f : Frame) :
    (f.opcode = Config.hw.opGyro ∧ decodeFrame f = .gyro f.payload) ∨
    (f.opcode = Config.hw.opAccel ∧ decodeFrame f = .accel f.payload) ∨
    (f.opcode = Config.hw.opScan ∧ decodeFrame f = .scan f.payload) ∨
    (f.opcode ≠ Config.hw.opGyro ∧ f.opcode ≠ Config.hw.opAccel ∧ f.opcode ≠ Config.hw.opScan ∧
      decodeFrame f = .unk f.opcode f.payload) := by
  unfold decodeFrame
  split_ifs with h1 h2 h3 <;> simp_all

/-- A payload the synchronizer can deliver, in the decoder's terms. -/
theorem payloadOk_iff (p : List Byte) :
    payloadOk p = true ↔ p.length ≤ Config.maxPayload ∧ ∀ b ∈ p, isSync b = false := by
  simp [payloadOk, hasDataPattern_eq_not_isSync]

/-- The DATA run of a payload that a SYNC byte follows is that payload. -/
theorem dataRun_append {p : List Byte} (h : ∀ b ∈ p, isSync b = false) {c : Byte} (hc : isSync c = true)
    (rest : List Byte) : dataRun (p ++ c :: rest) = p := by
  unfold dataRun
  rw [List.takeWhile_append_of_pos (by simpa using h)]
  simp [hc]

/-- What follows that run is the SYNC byte and the bytes after it. -/
theorem afterRun_append {p : List Byte} (h : ∀ b ∈ p, isSync b = false) {c : Byte} (hc : isSync c = true)
    (rest : List Byte) : afterRun (p ++ c :: rest) = c :: rest := by
  unfold afterRun
  rw [List.dropWhile_append_of_pos (by simpa using h)]
  simp [hc]

/-- A run and what follows it are the stream. -/
theorem dataRun_append_afterRun (bs : List Byte) : dataRun bs ++ afterRun bs = bs :=
  List.takeWhile_append_dropWhile

/-- Every byte of a DATA run is a DATA byte. -/
theorem isSync_of_mem_dataRun {bs : List Byte} {b : Byte} (h : b ∈ dataRun bs) : isSync b = false := by
  simpa using List.mem_takeWhile_imp h

end Sys2Proof
end

