-- ==== Sys2Proof/Laws/Operands.lean ====
section
/-! SUPPORT. The two bit assemblies as numbers, the scan operand entry by entry, and the decoder's verdict case by case. -/

namespace Sys2Proof.Machine

theorem low7_toNat (b : Byte) : (low7 b).toNat = b.toNat % 128 := by
  simp [low7, BitVec.extractLsb'_toNat]

/-- The word of Sample14 as a number: the two fields do not overlap (R141). -/
theorem sample14_toNat (lsb msb : Byte) :
    (sample14 lsb msb).toNat = 512 * (msb.toNat % 128) + 4 * (lsb.toNat % 128) := by
  have hl := low7_toNat lsb
  have hm := low7_toNat msb
  have hl' := (low7 lsb).isLt
  have hm' := (low7 msb).isLt
  have hdis := Nat.shiftLeft_add_eq_or_of_lt (b := (low7 lsb).toNat * 2 ^ 2) (i := 9) (by omega) (low7 msb).toNat
  simp only [sample14, Config.hw_s14ShiftMsb, Config.hw_s14ShiftLsb, BitVec.toNat_or, BitVec.toNat_shiftLeft,
    BitVec.toNat_setWidth, Nat.shiftLeft_eq] at hdis ⊢
  rw [Nat.mod_eq_of_lt (a := (low7 msb).toNat) (by omega), Nat.mod_eq_of_lt (a := (low7 lsb).toNat) (by omega),
    Nat.mod_eq_of_lt (by omega), Nat.mod_eq_of_lt (by omega)]
  omega

/-- Range14 as a number (R143). -/
theorem range14_toNat (lsb msb : Byte) :
    (range14 lsb msb).toNat = 128 * (msb.toNat % 128) + lsb.toNat % 128 := by
  have hl := low7_toNat lsb
  have hm := low7_toNat msb
  have hl' := (low7 lsb).isLt
  have hm' := (low7 msb).isLt
  have hdis := Nat.shiftLeft_add_eq_or_of_lt (b := (low7 lsb).toNat) (i := 7) (by omega) (low7 msb).toNat
  simp only [range14, Config.hw_r14ShiftMsb, BitVec.toNat_or, BitVec.toNat_shiftLeft,
    BitVec.toNat_setWidth, Nat.shiftLeft_eq] at hdis ⊢
  rw [Nat.mod_eq_of_lt (a := (low7 msb).toNat) (by omega), Nat.mod_eq_of_lt (a := (low7 lsb).toNat) (by omega),
    Nat.mod_eq_of_lt (by omega)]
  omega

/-- The index map is its own inverse (R147). -/
theorem scanIndex_scanIndex (k : ScanIndex) : Config.hw.scanIndex (Config.hw.scanIndex k) = k := by
  apply Fin.ext
  simp only [Config.hw_scanIndex_val]
  have := scanIndex_lt k
  omega

/-- Sample `i` stands at the index the map sends it to (R146). -/
theorem scanOperand_at (p : List Byte) (h : Config.hw.scanMinLen ≤ p.length) (i : ScanIndex) :
    (scanOperand p h)[Config.hw.scanIndex i] = scanSample p h i := by
  simp only [scanOperand, Fin.getElem_fin, Vector.getElem_ofFn, Fin.eta, scanIndex_scanIndex]

/-- The same with the bytes of the sample and the index as a number. -/
theorem scanOperand_getElem? (p : List Byte) (h : Config.hw.scanMinLen ≤ p.length) (i : Nat) (hi : i < 360) :
    ∃ lsb msb, p[2 * i]? = some lsb ∧ p[2 * i + 1]? = some msb ∧
      (scanOperand p h)[(360 - i) % 360]? = some (range14 lsb msb) := by
  have h' : 720 ≤ p.length := h
  refine ⟨p[2 * i], p[2 * i + 1], by simp, by simp, ?_⟩
  rw [Vector.getElem?_eq_getElem (Nat.mod_lt _ (by decide : 0 < 360))]
  exact congrArg some (scanOperand_at p h ⟨i, hi⟩)

theorem gyroEvent_of_le {p : List Byte} (h : Config.hw.vecMinLen ≤ p.length) :
    gyroEvent p = .gyroSample (vectorOperand p h) := by simp [gyroEvent, h]

theorem gyroEvent_of_lt {p : List Byte} (h : p.length < Config.hw.vecMinLen) : gyroEvent p = .nothing := by
  simp [gyroEvent, Nat.not_le.mpr h]

theorem accelEvent_of_le {p : List Byte} (h : Config.hw.vecMinLen ≤ p.length) :
    accelEvent p = .accelSample (vectorOperand p h) := by simp [accelEvent, h]

theorem accelEvent_of_lt {p : List Byte} (h : p.length < Config.hw.vecMinLen) : accelEvent p = .nothing := by
  simp [accelEvent, Nat.not_le.mpr h]

theorem scanEvent_of_le {p : List Byte} (h : Config.hw.scanMinLen ≤ p.length) :
    scanEvent p = .scanUpdate (scanOperand p h) := by simp [scanEvent, h]

theorem scanEvent_of_lt {p : List Byte} (h : p.length < Config.hw.scanMinLen) : scanEvent p = .nothing := by
  simp [scanEvent, Nat.not_le.mpr h]

/-- What the decoder's verdict can be, with the row and the length test that give it (R140). -/
theorem sensorEvent_cases (f : Frame) :
    (∃ h : Config.hw.vecMinLen ≤ f.payload.length, f.opcode = Config.hw.opGyro ∧
      sensorEvent f = .gyroSample (vectorOperand f.payload h)) ∨
    (∃ h : Config.hw.vecMinLen ≤ f.payload.length, f.opcode = Config.hw.opAccel ∧
      sensorEvent f = .accelSample (vectorOperand f.payload h)) ∨
    (∃ h : Config.hw.scanMinLen ≤ f.payload.length, f.opcode = Config.hw.opScan ∧
      sensorEvent f = .scanUpdate (scanOperand f.payload h)) ∨
    sensorEvent f = .nothing := by
  rcases decodeFrame_cases f with ⟨ho, hd⟩ | ⟨ho, hd⟩ | ⟨ho, hd⟩ | ⟨-, -, -, hd⟩ <;> simp only [sensorEvent, hd]
  · rcases Nat.lt_or_ge f.payload.length Config.hw.vecMinLen with h | h
    · exact .inr (.inr (.inr (gyroEvent_of_lt h)))
    · exact .inl ⟨h, ho, gyroEvent_of_le h⟩
  · rcases Nat.lt_or_ge f.payload.length Config.hw.vecMinLen with h | h
    · exact .inr (.inr (.inr (accelEvent_of_lt h)))
    · exact .inr (.inl ⟨h, ho, accelEvent_of_le h⟩)
  · rcases Nat.lt_or_ge f.payload.length Config.hw.scanMinLen with h | h
    · exact .inr (.inr (.inr (scanEvent_of_lt h)))
    · exact .inr (.inr (.inl ⟨h, ho, scanEvent_of_le h⟩))
  · simp

end Sys2Proof.Machine
end

