-- ==== Sys2Proof/Laws/State.lean ====
section
/-! SUPPORT. Each field after each setter of the state, and after the composed updates of the tick: true by definition,
for `simp`. -/

namespace Sys2Proof.Machine

@[simp] theorem State.setCur_cur (s : State) (c : List Byte) : (s.setCur c).cur = c := rfl
@[simp] theorem State.setCur_gyro (s : State) (c : List Byte) : (s.setCur c).gyro = s.gyro := rfl
@[simp] theorem State.setCur_accel (s : State) (c : List Byte) : (s.setCur c).accel = s.accel := rfl
@[simp] theorem State.setCur_scan (s : State) (c : List Byte) : (s.setCur c).scan = s.scan := rfl
@[simp] theorem State.setCur_drainOpen (s : State) (c : List Byte) : (s.setCur c).drainOpen = s.drainOpen := rfl
@[simp] theorem State.setCur_pose (s : State) (c : List Byte) : (s.setCur c).pose = s.pose := rfl
@[simp] theorem State.setCur_rx (s : State) (c : List Byte) : (s.setCur c).rx = s.rx := rfl
@[simp] theorem State.setCur_host (s : State) (c : List Byte) : (s.setCur c).host = s.host := rfl
@[simp] theorem State.setCur_snapshot (s : State) (c : List Byte) : (s.setCur c).snapshot = s.snapshot := rfl

@[simp] theorem State.setGyro_cur (s : State) (v : Vec3) : (s.setGyro v).cur = s.cur := rfl
@[simp] theorem State.setGyro_gyro (s : State) (v : Vec3) : (s.setGyro v).gyro = v := rfl
@[simp] theorem State.setGyro_accel (s : State) (v : Vec3) : (s.setGyro v).accel = s.accel := rfl
@[simp] theorem State.setGyro_scan (s : State) (v : Vec3) : (s.setGyro v).scan = s.scan := rfl
@[simp] theorem State.setGyro_drainOpen (s : State) (v : Vec3) : (s.setGyro v).drainOpen = s.drainOpen := rfl
@[simp] theorem State.setGyro_pose (s : State) (v : Vec3) : (s.setGyro v).pose = s.pose := rfl
@[simp] theorem State.setGyro_rx (s : State) (v : Vec3) : (s.setGyro v).rx = s.rx := rfl
@[simp] theorem State.setGyro_host (s : State) (v : Vec3) : (s.setGyro v).host = s.host := rfl
@[simp] theorem State.setGyro_snapshot (s : State) (v : Vec3) : (s.setGyro v).snapshot = s.snapshot := rfl

@[simp] theorem State.setAccel_cur (s : State) (v : Vec3) : (s.setAccel v).cur = s.cur := rfl
@[simp] theorem State.setAccel_gyro (s : State) (v : Vec3) : (s.setAccel v).gyro = s.gyro := rfl
@[simp] theorem State.setAccel_accel (s : State) (v : Vec3) : (s.setAccel v).accel = v := rfl
@[simp] theorem State.setAccel_scan (s : State) (v : Vec3) : (s.setAccel v).scan = s.scan := rfl
@[simp] theorem State.setAccel_drainOpen (s : State) (v : Vec3) : (s.setAccel v).drainOpen = s.drainOpen := rfl
@[simp] theorem State.setAccel_pose (s : State) (v : Vec3) : (s.setAccel v).pose = s.pose := rfl
@[simp] theorem State.setAccel_rx (s : State) (v : Vec3) : (s.setAccel v).rx = s.rx := rfl
@[simp] theorem State.setAccel_host (s : State) (v : Vec3) : (s.setAccel v).host = s.host := rfl
@[simp] theorem State.setAccel_snapshot (s : State) (v : Vec3) : (s.setAccel v).snapshot = s.snapshot := rfl

@[simp] theorem State.setScan_cur (s : State) (w : RangeScan) : (s.setScan w).cur = s.cur := rfl
@[simp] theorem State.setScan_gyro (s : State) (w : RangeScan) : (s.setScan w).gyro = s.gyro := rfl
@[simp] theorem State.setScan_accel (s : State) (w : RangeScan) : (s.setScan w).accel = s.accel := rfl
@[simp] theorem State.setScan_scan (s : State) (w : RangeScan) : (s.setScan w).scan = w := rfl
@[simp] theorem State.setScan_drainOpen (s : State) (w : RangeScan) : (s.setScan w).drainOpen = s.drainOpen := rfl
@[simp] theorem State.setScan_pose (s : State) (w : RangeScan) : (s.setScan w).pose = s.pose := rfl
@[simp] theorem State.setScan_rx (s : State) (w : RangeScan) : (s.setScan w).rx = s.rx := rfl
@[simp] theorem State.setScan_host (s : State) (w : RangeScan) : (s.setScan w).host = s.host := rfl
@[simp] theorem State.setScan_snapshot (s : State) (w : RangeScan) : (s.setScan w).snapshot = s.snapshot := rfl

@[simp] theorem State.setDrainOpen_cur (s : State) (d : Bool) : (s.setDrainOpen d).cur = s.cur := rfl
@[simp] theorem State.setDrainOpen_gyro (s : State) (d : Bool) : (s.setDrainOpen d).gyro = s.gyro := rfl
@[simp] theorem State.setDrainOpen_accel (s : State) (d : Bool) : (s.setDrainOpen d).accel = s.accel := rfl
@[simp] theorem State.setDrainOpen_scan (s : State) (d : Bool) : (s.setDrainOpen d).scan = s.scan := rfl
@[simp] theorem State.setDrainOpen_drainOpen (s : State) (d : Bool) : (s.setDrainOpen d).drainOpen = d := rfl
@[simp] theorem State.setDrainOpen_pose (s : State) (d : Bool) : (s.setDrainOpen d).pose = s.pose := rfl
@[simp] theorem State.setDrainOpen_rx (s : State) (d : Bool) : (s.setDrainOpen d).rx = s.rx := rfl
@[simp] theorem State.setDrainOpen_host (s : State) (d : Bool) : (s.setDrainOpen d).host = s.host := rfl
@[simp] theorem State.setDrainOpen_snapshot (s : State) (d : Bool) : (s.setDrainOpen d).snapshot = s.snapshot := rfl

@[simp] theorem State.setPose_cur (s : State) (p : Pose) : (s.setPose p).cur = s.cur := rfl
@[simp] theorem State.setPose_gyro (s : State) (p : Pose) : (s.setPose p).gyro = s.gyro := rfl
@[simp] theorem State.setPose_accel (s : State) (p : Pose) : (s.setPose p).accel = s.accel := rfl
@[simp] theorem State.setPose_scan (s : State) (p : Pose) : (s.setPose p).scan = s.scan := rfl
@[simp] theorem State.setPose_drainOpen (s : State) (p : Pose) : (s.setPose p).drainOpen = s.drainOpen := rfl
@[simp] theorem State.setPose_pose (s : State) (p : Pose) : (s.setPose p).pose = p := rfl
@[simp] theorem State.setPose_rx (s : State) (p : Pose) : (s.setPose p).rx = s.rx := rfl
@[simp] theorem State.setPose_host (s : State) (p : Pose) : (s.setPose p).host = s.host := rfl
@[simp] theorem State.setPose_snapshot (s : State) (p : Pose) : (s.setPose p).snapshot = s.snapshot := rfl

@[simp] theorem State.setRx_cur (s : State) (r : List (Option Byte)) : (s.setRx r).cur = s.cur := rfl
@[simp] theorem State.setRx_gyro (s : State) (r : List (Option Byte)) : (s.setRx r).gyro = s.gyro := rfl
@[simp] theorem State.setRx_accel (s : State) (r : List (Option Byte)) : (s.setRx r).accel = s.accel := rfl
@[simp] theorem State.setRx_scan (s : State) (r : List (Option Byte)) : (s.setRx r).scan = s.scan := rfl
@[simp] theorem State.setRx_drainOpen (s : State) (r : List (Option Byte)) : (s.setRx r).drainOpen = s.drainOpen := rfl
@[simp] theorem State.setRx_pose (s : State) (r : List (Option Byte)) : (s.setRx r).pose = s.pose := rfl
@[simp] theorem State.setRx_rx (s : State) (r : List (Option Byte)) : (s.setRx r).rx = r := rfl
@[simp] theorem State.setRx_host (s : State) (r : List (Option Byte)) : (s.setRx r).host = s.host := rfl
@[simp] theorem State.setRx_snapshot (s : State) (r : List (Option Byte)) : (s.setRx r).snapshot = s.snapshot := rfl

@[simp] theorem State.setHost_cur (s : State) (h : List (Option HostEvent)) : (s.setHost h).cur = s.cur := rfl
@[simp] theorem State.setHost_gyro (s : State) (h : List (Option HostEvent)) : (s.setHost h).gyro = s.gyro := rfl
@[simp] theorem State.setHost_accel (s : State) (h : List (Option HostEvent)) : (s.setHost h).accel = s.accel := rfl
@[simp] theorem State.setHost_scan (s : State) (h : List (Option HostEvent)) : (s.setHost h).scan = s.scan := rfl
@[simp] theorem State.setHost_drainOpen (s : State) (h : List (Option HostEvent)) : (s.setHost h).drainOpen = s.drainOpen := rfl
@[simp] theorem State.setHost_pose (s : State) (h : List (Option HostEvent)) : (s.setHost h).pose = s.pose := rfl
@[simp] theorem State.setHost_rx (s : State) (h : List (Option HostEvent)) : (s.setHost h).rx = s.rx := rfl
@[simp] theorem State.setHost_host (s : State) (h : List (Option HostEvent)) : (s.setHost h).host = h := rfl
@[simp] theorem State.setHost_snapshot (s : State) (h : List (Option HostEvent)) : (s.setHost h).snapshot = s.snapshot := rfl

@[simp] theorem State.setSnapshot_cur (s : State) (v : Option Snapshot) : (s.setSnapshot v).cur = s.cur := rfl
@[simp] theorem State.setSnapshot_gyro (s : State) (v : Option Snapshot) : (s.setSnapshot v).gyro = s.gyro := rfl
@[simp] theorem State.setSnapshot_accel (s : State) (v : Option Snapshot) : (s.setSnapshot v).accel = s.accel := rfl
@[simp] theorem State.setSnapshot_scan (s : State) (v : Option Snapshot) : (s.setSnapshot v).scan = s.scan := rfl
@[simp] theorem State.setSnapshot_drainOpen (s : State) (v : Option Snapshot) : (s.setSnapshot v).drainOpen = s.drainOpen := rfl
@[simp] theorem State.setSnapshot_pose (s : State) (v : Option Snapshot) : (s.setSnapshot v).pose = s.pose := rfl
@[simp] theorem State.setSnapshot_rx (s : State) (v : Option Snapshot) : (s.setSnapshot v).rx = s.rx := rfl
@[simp] theorem State.setSnapshot_host (s : State) (v : Option Snapshot) : (s.setSnapshot v).host = s.host := rfl
@[simp] theorem State.setSnapshot_snapshot (s : State) (v : Option Snapshot) : (s.setSnapshot v).snapshot = v := rfl

@[simp] theorem State.present_cur (s : State) : (s.present).cur = s.cur := rfl
@[simp] theorem State.present_gyro (s : State) : (s.present).gyro = s.gyro := rfl
@[simp] theorem State.present_accel (s : State) : (s.present).accel = s.accel := rfl
@[simp] theorem State.present_scan (s : State) : (s.present).scan = s.scan := rfl
@[simp] theorem State.present_drainOpen (s : State) : (s.present).drainOpen = s.drainOpen := rfl
@[simp] theorem State.present_pose (s : State) : (s.present).pose = s.pose := rfl
@[simp] theorem State.present_rx (s : State) : (s.present).rx = s.rx := rfl
@[simp] theorem State.present_host (s : State) : (s.present).host = s.host := rfl
@[simp] theorem State.present_snapshot (s : State) : (s.present).snapshot = some s.takeSnapshot := rfl

@[simp] theorem endDrain_cur (s : State) : (endDrain s).cur = s.cur := rfl
@[simp] theorem endDrain_gyro (s : State) : (endDrain s).gyro = s.gyro := rfl
@[simp] theorem endDrain_accel (s : State) : (endDrain s).accel = s.accel := rfl
@[simp] theorem endDrain_scan (s : State) : (endDrain s).scan = s.scan := rfl
@[simp] theorem endDrain_drainOpen (s : State) : (endDrain s).drainOpen = false := rfl
@[simp] theorem endDrain_pose (s : State) : (endDrain s).pose = s.pose := rfl
@[simp] theorem endDrain_rx (s : State) : (endDrain s).rx = s.rx := rfl
@[simp] theorem endDrain_host (s : State) : (endDrain s).host = s.host := rfl
@[simp] theorem endDrain_snapshot (s : State) : (endDrain s).snapshot = some s.takeSnapshot := rfl

@[simp] theorem resetCore_cur (s : State) : (resetCore s).cur = [] := rfl
@[simp] theorem resetCore_gyro (s : State) : (resetCore s).gyro = zeroVec := rfl
@[simp] theorem resetCore_accel (s : State) : (resetCore s).accel = zeroVec := rfl
@[simp] theorem resetCore_scan (s : State) : (resetCore s).scan = emptyScan := rfl
@[simp] theorem resetCore_drainOpen (s : State) : (resetCore s).drainOpen = false := rfl
@[simp] theorem resetCore_pose (s : State) : (resetCore s).pose = s.pose := rfl
@[simp] theorem resetCore_rx (s : State) : (resetCore s).rx = s.rx := rfl
@[simp] theorem resetCore_host (s : State) : (resetCore s).host = s.host := rfl
@[simp] theorem resetCore_snapshot (s : State) : (resetCore s).snapshot = s.snapshot := rfl

@[simp] theorem State.offerByte_cur (s : State) (b : Byte) : (s.offerByte b).cur = s.cur := rfl
@[simp] theorem State.offerByte_gyro (s : State) (b : Byte) : (s.offerByte b).gyro = s.gyro := rfl
@[simp] theorem State.offerByte_accel (s : State) (b : Byte) : (s.offerByte b).accel = s.accel := rfl
@[simp] theorem State.offerByte_scan (s : State) (b : Byte) : (s.offerByte b).scan = s.scan := rfl
@[simp] theorem State.offerByte_drainOpen (s : State) (b : Byte) : (s.offerByte b).drainOpen = true := rfl
@[simp] theorem State.offerByte_pose (s : State) (b : Byte) : (s.offerByte b).pose = s.pose := rfl
@[simp] theorem State.offerByte_rx (s : State) (b : Byte) : (s.offerByte b).rx = some b :: s.rx := rfl
@[simp] theorem State.offerByte_host (s : State) (b : Byte) : (s.offerByte b).host = none :: s.host := rfl
@[simp] theorem State.offerByte_snapshot (s : State) (b : Byte) : (s.offerByte b).snapshot = s.snapshot := rfl

@[simp] theorem State.reset_cur : State.reset.cur = [] := rfl
@[simp] theorem State.reset_gyro : State.reset.gyro = zeroVec := rfl
@[simp] theorem State.reset_accel : State.reset.accel = zeroVec := rfl
@[simp] theorem State.reset_scan : State.reset.scan = emptyScan := rfl
@[simp] theorem State.reset_drainOpen : State.reset.drainOpen = false := rfl
@[simp] theorem State.reset_pose : State.reset.pose = ⟨⟨0⟩, ⟨0⟩, ⟨0⟩⟩ := rfl
@[simp] theorem State.reset_rx : State.reset.rx = [] := rfl
@[simp] theorem State.reset_host : State.reset.host = [] := rfl
@[simp] theorem State.reset_snapshot : State.reset.snapshot = none := rfl

/-- Two states with the same nine fields are one state. -/
theorem State.ext_fields {s t : State} (h1 : s.cur = t.cur) (h2 : s.gyro = t.gyro) (h3 : s.accel = t.accel)
    (h4 : s.scan = t.scan) (h5 : s.drainOpen = t.drainOpen) (h6 : s.pose = t.pose) (h7 : s.rx = t.rx)
    (h8 : s.host = t.host) (h9 : s.snapshot = t.snapshot) : s = t := by
  cases s; cases t; simp_all

/-- Setting the host's doings to what they are changes nothing. -/
@[simp] theorem State.setHost_self (s : State) : s.setHost s.host = s := rfl

/-- Setting the ByteSource's answers to what they are changes nothing. -/
@[simp] theorem State.setRx_self (s : State) : s.setRx s.rx = s := rfl

end Sys2Proof.Machine
end

