-- ==== Sys2Proof/Laws/Ops.lean ====
section
/-! SUPPORT. One lemma for each thing the shared operations can do: the guard, the arms of ByteStep and their fold, the
decoder's update, and the taking of a byte. -/

namespace Sys2Proof.Machine

theorem overflowGuard_of_le {cur : List Byte} (h : cur.length ≤ Config.hw.bufBound) : overflowGuard cur = cur := by
  simp [overflowGuard, Nat.not_lt.mpr h]

theorem overflowGuard_of_gt {cur : List Byte} (h : Config.hw.bufBound < cur.length) : overflowGuard cur = [] := by
  simp [overflowGuard, h]

/-- After the guard the buffer is within the bound (R113). -/
theorem overflowGuard_length (cur : List Byte) : (overflowGuard cur).length ≤ Config.hw.bufBound := by
  unfold overflowGuard
  split_ifs with h
  · exact Nat.zero_le _
  · exact Nat.le_of_not_lt h

@[simp] theorem synced_nil : synced [] = false := rfl

@[simp] theorem synced_cons (b : Byte) (bs : List Byte) : synced (b :: bs) = isSync b := rfl

/-- A Frame is completed exactly of a synced buffer, and is that buffer (R114, R115). -/
theorem completedFrame_eq_some_iff {cur : List Byte} {f : Frame} :
    completedFrame cur = some f ↔ isSync f.opcode = true ∧ cur = f.opcode :: f.payload := by
  cases cur with
  | nil => simp [completedFrame]
  | cons op p =>
    cases h : isSync op with
    | false =>
      simp only [completedFrame, synced_cons, h]
      constructor
      · simp
      · rintro ⟨hs, he⟩
        obtain ⟨rfl, -⟩ := List.cons.inj he
        simp [h] at hs
    | true =>
      simp only [completedFrame, synced_cons, h, if_true, Option.some.injEq]
      constructor
      · rintro rfl; exact ⟨h, rfl⟩
      · rintro ⟨-, he⟩
        obtain ⟨rfl, rfl⟩ := List.cons.inj he
        rfl

/-- No Frame is completed of an unsynced buffer (R115). -/
theorem completedFrame_of_not_synced {cur : List Byte} (h : synced cur = false) : completedFrame cur = none := by
  cases cur <;> simp_all [completedFrame]

theorem byteStep_of_sync {b : Byte} (h : isSync b = true) (cur : List Byte) :
    byteStep cur b = ([b], completedFrame (overflowGuard cur)) := by simp [byteStep, syncArm, h]

theorem byteStep_of_data {b : Byte} (h : isSync b = false) (cur : List Byte) :
    byteStep cur b = (overflowGuard cur ++ [b], none) := by simp [byteStep, dataArm, h]

@[simp] theorem framesOf_nil (cur : List Byte) : framesOf cur [] = (cur, []) := rfl

@[simp] theorem framesOf_cons (cur : List Byte) (b : Byte) (bs : List Byte) :
    framesOf cur (b :: bs) = ((framesOf (byteStep cur b).1 bs).1,
      (byteStep cur b).2.toList ++ (framesOf (byteStep cur b).1 bs).2) := rfl

/-- The fold over a concatenation is the fold over its second part from where the first leaves the buffer (R60). -/
theorem framesOf_append (cur as bs : List Byte) :
    framesOf cur (as ++ bs) = ((framesOf (framesOf cur as).1 bs).1,
      (framesOf cur as).2 ++ (framesOf (framesOf cur as).1 bs).2) := by
  induction as generalizing cur with
  | nil => simp
  | cons a as ih => simp [ih]

/-- What an event can do to a state (R140). -/
theorem applyEvent_cases (e : SensorEvent) (s : State) :
    (∃ v, e = .gyroSample v ∧ applyEvent e s = s.setGyro v) ∨
    (∃ v, e = .accelSample v ∧ applyEvent e s = s.setAccel v) ∨
    (∃ w, e = .scanUpdate w ∧ applyEvent e s = s.setScan w) ∨
    (e = .nothing ∧ applyEvent e s = s) := by
  cases e <;> simp [applyEvent]

@[simp] theorem applyEvent_cur (e : SensorEvent) (s : State) : (applyEvent e s).cur = s.cur := by cases e <;> rfl
@[simp] theorem applyEvent_drainOpen (e : SensorEvent) (s : State) : (applyEvent e s).drainOpen = s.drainOpen := by
  cases e <;> rfl
@[simp] theorem applyEvent_pose (e : SensorEvent) (s : State) : (applyEvent e s).pose = s.pose := by cases e <;> rfl
@[simp] theorem applyEvent_rx (e : SensorEvent) (s : State) : (applyEvent e s).rx = s.rx := by cases e <;> rfl
@[simp] theorem applyEvent_host (e : SensorEvent) (s : State) : (applyEvent e s).host = s.host := by cases e <;> rfl
@[simp] theorem applyEvent_snapshot (e : SensorEvent) (s : State) : (applyEvent e s).snapshot = s.snapshot := by
  cases e <;> rfl

@[simp] theorem decodeStep_cur (f : Frame) (s : State) : (decodeStep f s).cur = s.cur := applyEvent_cur _ _
@[simp] theorem decodeStep_drainOpen (f : Frame) (s : State) : (decodeStep f s).drainOpen = s.drainOpen :=
  applyEvent_drainOpen _ _
@[simp] theorem decodeStep_pose (f : Frame) (s : State) : (decodeStep f s).pose = s.pose := applyEvent_pose _ _
@[simp] theorem decodeStep_rx (f : Frame) (s : State) : (decodeStep f s).rx = s.rx := applyEvent_rx _ _
@[simp] theorem decodeStep_host (f : Frame) (s : State) : (decodeStep f s).host = s.host := applyEvent_host _ _
@[simp] theorem decodeStep_snapshot (f : Frame) (s : State) : (decodeStep f s).snapshot = s.snapshot :=
  applyEvent_snapshot _ _

@[simp] theorem decodeAll_nil (s : State) : decodeAll [] s = s := rfl

@[simp] theorem decodeAll_cons (f : Frame) (fs : List Frame) (s : State) :
    decodeAll (f :: fs) s = decodeAll fs (decodeStep f s) := rfl

theorem decodeAll_append (fs gs : List Frame) (s : State) :
    decodeAll (fs ++ gs) s = decodeAll gs (decodeAll fs s) := by simp [decodeAll]

theorem acceptByte_none {r : List Byte × Option Frame} (h : r.2 = none) (s : State) :
    acceptByte r s = s.setCur r.1 := by simp [acceptByte, h]

theorem acceptByte_some {r : List Byte × Option Frame} {f : Frame} (h : r.2 = some f) (s : State) :
    acceptByte r s = (decodeStep f (s.setCur r.1)).setDrainOpen false := by simp [acceptByte, h]

/-- A taken byte leaves in the buffer what its arm gives. -/
@[simp] theorem acceptByte_cur (r : List Byte × Option Frame) (s : State) : (acceptByte r s).cur = r.1 := by
  rcases r with ⟨c, _ | f⟩ <;> simp [acceptByte]

@[simp] theorem acceptByte_pose (r : List Byte × Option Frame) (s : State) : (acceptByte r s).pose = s.pose := by
  rcases r with ⟨c, _ | f⟩ <;> simp [acceptByte]

@[simp] theorem acceptByte_rx (r : List Byte × Option Frame) (s : State) : (acceptByte r s).rx = s.rx := by
  rcases r with ⟨c, _ | f⟩ <;> simp [acceptByte]

@[simp] theorem acceptByte_host (r : List Byte × Option Frame) (s : State) : (acceptByte r s).host = s.host := by
  rcases r with ⟨c, _ | f⟩ <;> simp [acceptByte]

@[simp] theorem acceptByte_snapshot (r : List Byte × Option Frame) (s : State) :
    (acceptByte r s).snapshot = s.snapshot := by
  rcases r with ⟨c, _ | f⟩ <;> simp [acceptByte]

/-- A taken byte closes the drain exactly where it completes a Frame (R122). -/
theorem acceptByte_drainOpen (r : List Byte × Option Frame) (s : State) :
    (acceptByte r s).drainOpen = (r.2.isNone && s.drainOpen) := by
  rcases r with ⟨c, _ | f⟩ <;> simp [acceptByte]

end Sys2Proof.Machine
end

