-- ==== Sys2Proof/Laws/Framing.lean ====
section
/-! SUPPORT. What a run of DATA bytes does to the buffer, said once for every length: it emits nothing, it keeps an
unsynced buffer unsynced, and after it the guard finds either the buffer with the run appended or an unsynced buffer. Every
claim about which Frames a stream yields rests on these. -/

namespace Sys2Proof.Machine

/-- The guard makes no buffer synced. -/
theorem overflowGuard_not_synced {cur : List Byte} (h : synced cur = false) : synced (overflowGuard cur) = false := by
  unfold overflowGuard; split_ifs <;> simp [h]

/-- A DATA byte makes no buffer synced. -/
theorem append_not_synced {cur : List Byte} (h : synced cur = false) {d : Byte} (hd : isSync d = false) :
    synced (cur ++ [d]) = false := by
  cases cur <;> simp_all

/-- DATA bytes emit no Frame (R116). -/
theorem framesOf_of_data {ds : List Byte} (hd : ∀ d ∈ ds, isSync d = false) (cur : List Byte) :
    (framesOf cur ds).2 = [] := by
  induction ds generalizing cur with
  | nil => rfl
  | cons d ds ih =>
    rw [framesOf_cons, byteStep_of_data (hd d (by simp))]
    simp [ih (fun x hx => hd x (by simp [hx]))]

/-- An unsynced buffer stays unsynced over DATA bytes (R115). -/
theorem framesOf_not_synced {ds : List Byte} (hd : ∀ d ∈ ds, isSync d = false) {cur : List Byte}
    (h : synced cur = false) : synced (framesOf cur ds).1 = false := by
  induction ds generalizing cur with
  | nil => exact h
  | cons d ds ih =>
    rw [framesOf_cons, byteStep_of_data (hd d (by simp))]
    exact ih (fun x hx => hd x (by simp [hx]))
      (append_not_synced (overflowGuard_not_synced h) (hd d (by simp)))

/-- What the guard finds after a run of DATA bytes: the whole run on the buffer where both fit the bound, and an unsynced
buffer where they do not (R113, R118). -/
theorem overflowGuard_after_data {ds : List Byte} (hd : ∀ d ∈ ds, isSync d = false) (cur : List Byte) :
    (cur.length + ds.length ≤ Config.hw.bufBound → overflowGuard (framesOf cur ds).1 = cur ++ ds) ∧
    (Config.hw.bufBound < cur.length + ds.length → synced (overflowGuard (framesOf cur ds).1) = false) := by
  induction ds generalizing cur with
  | nil =>
    simp only [framesOf_nil, List.append_nil, List.length_nil, Nat.add_zero]
    exact ⟨fun h => overflowGuard_of_le h, fun h => by rw [overflowGuard_of_gt h]; rfl⟩
  | cons d ds ih =>
    rw [framesOf_cons, byteStep_of_data (hd d (by simp))]
    have hd' : ∀ x ∈ ds, isSync x = false := fun x hx => hd x (by simp [hx])
    by_cases hl : cur.length ≤ Config.hw.bufBound
    · rw [overflowGuard_of_le (cur := cur) hl]
      have := ih hd' (cur ++ [d])
      simp only [List.length_append, List.length_cons, List.length_nil, List.append_assoc,
        List.singleton_append] at this ⊢
      exact ⟨fun h => this.1 (by omega), fun h => this.2 (by omega)⟩
    · rw [overflowGuard_of_gt (cur := cur) (Nat.lt_of_not_le hl)]
      refine ⟨fun h => absurd h (by simp; omega), fun _ => overflowGuard_not_synced (framesOf_not_synced hd' ?_)⟩
      simp [hd d (by simp)]

/-- The Frames of a stream and one more byte. -/
theorem framesOf_concat (cur bs : List Byte) (b : Byte) :
    (framesOf cur (bs ++ [b])).2 = (framesOf cur bs).2 ++ (byteStep (framesOf cur bs).1 b).2.toList := by
  rw [framesOf_append]; simp

end Sys2Proof.Machine
end

