-- ==== Sys2Proof/Laws/PerInstr.lean ====
section
/-! SUPPORT. The statements made of every instruction as syntax, one lemma per constructor. Family `EncodedShape`: the bytes
of a well-formed instruction are at least one and at most `BUF_BOUND` (R118), and every byte after the first is a DATA byte
(R80, R81). -/

namespace Sys2Proof.Laws.EncodedShape

/-- The shape of a well-formed instruction's bytes (R81, R118). -/
def Statement (i : Instr) : Prop :=
  i.wf = true → 1 ≤ (encode i).length ∧ (encode i).length ≤ Config.hw.bufBound ∧
    ∀ b ∈ (encode i).tail, isSync b = false

theorem of_payload {op : Byte} {p : List Byte} (h : payloadOk p = true) :
    1 ≤ (op :: p).length ∧ (op :: p).length ≤ Config.hw.bufBound ∧ ∀ b ∈ (op :: p).tail, isSync b = false := by
  obtain ⟨hl, hp⟩ := (payloadOk_iff p).mp h
  rw [Config.hw_maxPayload] at hl
  rw [Config.hw_bufBound]
  exact ⟨by simp, by simp; omega, hp⟩

theorem gyro (p : List Byte) : Statement (.gyro p) := fun h => of_payload h

theorem accel (p : List Byte) : Statement (.accel p) := fun h => of_payload h

theorem scan (p : List Byte) : Statement (.scan p) := fun h => of_payload h

theorem unk (op : Byte) (p : List Byte) : Statement (.unk op p) := fun h =>
  of_payload (by simp only [Instr.wf, Bool.and_eq_true] at h; exact h.2)

theorem sync (b : Byte) : Statement (.sync b) := fun _ => by simp [encode, Config.hw_bufBound]

theorem data (b : Byte) : Statement (.data b) := fun _ => by simp [encode, Config.hw_bufBound]

end Sys2Proof.Laws.EncodedShape
end

