-- ==== Sys2Proof/Laws/Step.lean ====
section
/-! SUPPORT. What `exec` and one step can do, said once: every outcome is a next state, a byte-class row takes its arm of
ByteStep, and a step is one of four turns. Later proofs cite these and do not unfold `step`. -/

namespace Sys2Proof.Machine

/-- Running the decoded row of a byte is ByteStep and what it emits (R112, R150). -/
theorem exec_decodeByte (b : Byte) (s : State) :
    exec (decodeByte b) s = .next (acceptByte (byteStep s.cur b) s) := by
  cases h : isSync b
  · rw [decodeByte_of_data h]; simp [exec, execData, byteStep, h]
  · rw [decodeByte_of_sync h]; simp [exec, execSync, byteStep, h]

/-- Running the row of a Frame is DecodeStep (R140). -/
theorem exec_decodeFrame (f : Frame) (s : State) : exec (decodeFrame f) s = .next (decodeStep f s) := by
  rcases decodeFrame_cases f with ⟨_, h⟩ | ⟨_, h⟩ | ⟨_, h⟩ | ⟨_, _, _, h⟩ <;>
    simp [decodeStep, sensorEvent, h, exec, execGyro, execAccel, execScan, execUnk]

/-- The turns a step can take, with what each answers. -/
theorem step_cases (s : State) :
    (∃ e h, s.host = some e :: h ∧ step s = .next (hostStep e (s.setHost h))) ∨
    (s.host.head?.join = none ∧
      ((s.drainOpen = false ∧ step s = .next (s.setHost s.host.tail)) ∨
       (s.drainOpen = true ∧ s.rx.head?.join = none ∧
         step s = .next (endDrain ((s.setHost s.host.tail).setRx s.rx.tail))) ∨
       (∃ b rs, s.drainOpen = true ∧ s.rx = some b :: rs ∧
         step s = .next (afterByte (acceptByte (byteStep s.cur b) ((s.setHost s.host.tail).setRx rs)))))) := by
  cases hh : s.host with
  | cons e h =>
    cases e with
    | some e => exact .inl ⟨e, h, rfl, by simp [step, nextTurn, hh]⟩
    | none =>
      refine .inr ⟨rfl, ?_⟩
      cases hd : s.drainOpen with
      | false => exact .inl ⟨rfl, by simp [step, nextTurn, coreTurn, hh, hd]⟩
      | true =>
        rcases hr : s.rx with _ | ⟨_ | b, rs⟩
        · refine .inr (.inl ⟨rfl, rfl, ?_⟩)
          have : (s.setHost h).setRx [] = s.setHost h := by rw [← hr]; rfl
          simp [step, nextTurn, coreTurn, State.poll, hh, hd, hr, this]
        · exact .inr (.inl ⟨rfl, rfl, by simp [step, nextTurn, coreTurn, State.poll, hh, hd, hr]⟩)
        · refine .inr (.inr ⟨b, rs, rfl, rfl, ?_⟩)
          simp [step, nextTurn, coreTurn, State.poll, hh, hd, hr, exec_decodeByte, finishByte]
  | nil =>
    have hs : s.setHost [] = s := by rw [← hh]; rfl
    refine .inr ⟨rfl, ?_⟩
    cases hd : s.drainOpen with
    | false => exact .inl ⟨rfl, by simp [step, nextTurn, coreTurn, hh, hd, hs]⟩
    | true =>
      rcases hr : s.rx with _ | ⟨_ | b, rs⟩
      · refine .inr (.inl ⟨rfl, rfl, ?_⟩)
        have : s.setRx [] = s := by rw [← hr]; rfl
        simp [step, nextTurn, coreTurn, State.poll, hh, hd, hr, hs, this]
      · exact .inr (.inl ⟨rfl, rfl, by simp [step, nextTurn, coreTurn, State.poll, hh, hd, hr, hs]⟩)
      · refine .inr (.inr ⟨b, rs, rfl, rfl, ?_⟩)
        simp [step, nextTurn, coreTurn, State.poll, hh, hd, hr, hs, exec_decodeByte, finishByte]

@[simp] theorem afterByte_cur (s : State) : (afterByte s).cur = s.cur := by unfold afterByte; split <;> rfl
@[simp] theorem afterByte_gyro (s : State) : (afterByte s).gyro = s.gyro := by unfold afterByte; split <;> rfl
@[simp] theorem afterByte_accel (s : State) : (afterByte s).accel = s.accel := by unfold afterByte; split <;> rfl
@[simp] theorem afterByte_scan (s : State) : (afterByte s).scan = s.scan := by unfold afterByte; split <;> rfl
@[simp] theorem afterByte_drainOpen (s : State) : (afterByte s).drainOpen = s.drainOpen := by
  unfold afterByte; split <;> rfl
@[simp] theorem afterByte_pose (s : State) : (afterByte s).pose = s.pose := by unfold afterByte; split <;> rfl
@[simp] theorem afterByte_rx (s : State) : (afterByte s).rx = s.rx := by unfold afterByte; split <;> rfl
@[simp] theorem afterByte_host (s : State) : (afterByte s).host = s.host := by unfold afterByte; split <;> rfl

end Sys2Proof.Machine
end

