-- ==== Sys2Proof/Laws/Tick.lean ====
section
/-! SUPPORT. The bytes of a list of poll answers, agreement of SensorState as an equivalence that decoding keeps, and the
drain loop's answers one by one. -/

namespace Sys2Proof.Machine

@[simp] theorem bytesOf_nil : bytesOf [] = [] := rfl

@[simp] theorem bytesOf_cons_some (b : Byte) (rs : List (Option Byte)) : bytesOf (some b :: rs) = b :: bytesOf rs := by
  simp [bytesOf]

@[simp] theorem bytesOf_cons_none (rs : List (Option Byte)) : bytesOf (none :: rs) = bytesOf rs := by simp [bytesOf]

@[simp] theorem bytesOf_append (as bs : List (Option Byte)) : bytesOf (as ++ bs) = bytesOf as ++ bytesOf bs := by
  simp [bytesOf]

theorem State.sameSensors_refl (s : State) : s.sameSensors s := ⟨rfl, rfl, rfl⟩

theorem State.sameSensors_symm {s t : State} (h : s.sameSensors t) : t.sameSensors s :=
  ⟨h.1.symm, h.2.1.symm, h.2.2.symm⟩

theorem State.sameSensors_trans {s t u : State} (h : s.sameSensors t) (g : t.sameSensors u) : s.sameSensors u :=
  ⟨h.1.trans g.1, h.2.1.trans g.2.1, h.2.2.trans g.2.2⟩

/-- DecodeStep sees nothing of the state but the SensorState it updates (R140). -/
theorem applyEvent_sameSensors {s t : State} (h : s.sameSensors t) (e : SensorEvent) :
    (applyEvent e s).sameSensors (applyEvent e t) := by
  obtain ⟨a, b, c⟩ := h
  cases e <;> simp [applyEvent, State.sameSensors, a, b, c]

theorem decodeAll_sameSensors {s t : State} (h : s.sameSensors t) (fs : List Frame) :
    (decodeAll fs s).sameSensors (decodeAll fs t) := by
  induction fs generalizing s t with
  | nil => exact h
  | cons f fs ih => exact ih (applyEvent_sameSensors h _)

theorem drainLoop_nil (s : State) : drainLoop [] s = (s.setRx []).setDrainOpen false := rfl

theorem drainLoop_none (rs : List (Option Byte)) (s : State) :
    drainLoop (none :: rs) s = (s.setRx rs).setDrainOpen false := rfl

/-- A byte that completes a Frame ends the loop (R122). -/
theorem drainLoop_frame {b : Byte} {s : State} {f : Frame} (h : (byteStep s.cur b).2 = some f)
    (rs : List (Option Byte)) :
    drainLoop (some b :: rs) s = (decodeStep f ((s.setRx rs).setCur (byteStep s.cur b).1)).setDrainOpen false := by
  simp only [drainLoop, h, acceptByte_some h]

/-- A byte that completes none lets it go on (R122). -/
theorem drainLoop_noFrame {b : Byte} {s : State} (h : (byteStep s.cur b).2 = none) (rs : List (Option Byte)) :
    drainLoop (some b :: rs) s = drainLoop rs ((s.setRx rs).setCur (byteStep s.cur b).1) := by
  simp only [drainLoop, h, acceptByte_none h]

end Sys2Proof.Machine
end

