-- ==== Sys2Proof/Tests/Slice0.lean ====
section
/-! SUPPORT. The model's own tests: ill-formed terms that the checks refuse, words written out from `spec/30_encoding.md`,
one step or one instruction at a time with the results of `spec/95_test_vectors.md`, and a witness for the hypotheses of
each statement of `Certificates/Slice0/Obligations.lean`. -/

namespace Sys2Proof.Machine.Tests

/-- The next state of an outcome. -/
def nextOf (o : Host.Outcome State Fault Refusal) : Option State :=
  match o with
  | .next t => some t
  | .fault _ => none
  | .refused _ => none

/-- A small state: a buffer and the ByteSource's answers, with a tick open and the host quiet. -/
def at_ (cur : List Byte) (rx : List (Option Byte)) : State := { State.reset with cur := cur, rx := rx, drainOpen := true }

/-- A scan with two entries, all else missing. -/
def scanOf (i : ScanIndex) (a : Range) (j : ScanIndex) (b : Range) : RangeScan := (emptyScan.set i a).set j b

/-! ### Ill-formed terms -/

theorem test_wf_refuses_sync_byte_in_payload : (Instr.gyro [0x01, 0x80]).wf = false := by decide
theorem test_wf_refuses_sync_byte_in_accel_payload : (Instr.accel [0xFF]).wf = false := by decide
theorem test_wf_refuses_long_payload : (Instr.scan (List.replicate 1000 0)).wf = false := by decide +kernel
theorem test_wf_accepts_longest_payload : (Instr.scan (List.replicate 999 0)).wf = true := by decide +kernel
theorem test_wf_refuses_unk_gyro_opcode : (Instr.unk 0x80 []).wf = false := by decide
theorem test_wf_refuses_unk_accel_opcode : (Instr.unk 0x81 []).wf = false := by decide
theorem test_wf_refuses_unk_scan_opcode : (Instr.unk 0x84 []).wf = false := by decide
theorem test_wf_refuses_unk_data_opcode : (Instr.unk 0x7F []).wf = false := by decide
theorem test_wf_refuses_unk_sync_byte_in_payload : (Instr.unk 0x82 [0x80]).wf = false := by decide
theorem test_wf_refuses_data_as_sync : (Instr.sync 0x7F).wf = false := by decide
theorem test_wf_refuses_sync_as_data : (Instr.data 0x80).wf = false := by decide

/-! ### Words written out from the spec's encodings (R80, R84, R85, R86, R89) -/

/-- GYRO −4, 0, 4 of program P1: `80 7F 7F 00 00 01 00`, closed by `81`. -/
theorem test_decode_gyro : decodeStream [0b10000000, 0b01111111, 0b01111111, 0, 0, 0b00000001, 0, 0b10000001] =
    .ok (.gyro [0x7F, 0x7F, 0x00, 0x00, 0x01, 0x00], [0x81]) := by rfl

/-- ACCEL −32768, 32764, 1040 of program P1. -/
theorem test_decode_accel : decodeStream [0b10000001, 0, 0b01000000, 0b01111111, 0b00111111, 0b00000100, 0b00000010, 0b10000000] =
    .ok (.accel [0x00, 0x40, 0x7F, 0x3F, 0x04, 0x02], [0x80]) := by rfl

theorem test_decode_scan : decodeStream [0b10000100, 0b01101000, 0b00000111, 0b10000000, 0b00000101] =
    .ok (.scan [0x68, 0x07], [0x80, 0x05]) := by rfl

/-- Vector K4 and the example of R148. -/
theorem test_decode_unk : decodeStream [0b10000011, 0b10000000] = .ok (.unk 0x83 [], [0x80]) ∧
    decodeStream [0x90, 1, 2, 3, 0x90] = .ok (.unk 0x90 [1, 2, 3], [0x90]) := ⟨rfl, rfl⟩

theorem test_decode_sync : decodeByte 0b10000000 = .sync 0x80 ∧ decodeByte 0b11111111 = .sync 0xFF := ⟨rfl, rfl⟩

/-- 0x7F is a DATA byte (vector F15). -/
theorem test_decode_data : decodeByte 0b01111111 = .data 0x7F ∧ decodeStream [0x11, 0x80] = .ok (.data 0x11, [0x80]) :=
  ⟨rfl, rfl⟩

theorem test_decode_refusals : decodeStream [] = .error .noBytes ∧ decodeStream [0x80, 0x05] = .error .unterminated :=
  ⟨rfl, rfl⟩

theorem test_decode_overlong : (match decodeStream (0x80 :: List.replicate 1000 1 ++ [0x80]) with
    | .error .overlong => true | _ => false) = true := by decide +kernel

/-- The encoders' examples of 2.5 that R94 does not list. -/
theorem test_encoders : encVector 100 (-100) 1000 = some [0x19, 0x00, 0x67, 0x7F, 0x7A, 0x01] ∧
    encRanges [4001, 3500] = [0x21, 0x1F, 0x2C, 0x1B] ∧ enc14s 2 = none := by decide

/-! ### The table words -/

theorem test_table_words : decodeTableWord 8 0x80 = some (.gyro [0, 0, 0, 0, 0, 0]) ∧
    decodeTableWord 8 0x81 = some (.accel [0, 0, 0, 0, 0, 0]) ∧ decodeTableWord 8 0x82 = some (.unk 0x82 []) ∧
    decodeTableWord 8 0x00 = some (.data 0x00) ∧ decodeTableWord 0 0 = none := by decide

theorem test_table_word_scan : decodeTableWord 8 0x84 = some (.scan (List.replicate 720 0)) := by decide +kernel

/-- The step after reset that runs a table word's frame ends with its closing byte in the buffer and the drain closed. -/
theorem test_fetch_gyro : (nextOf (step (State.reset.withFetchWord 8 0x80))).map (fun t => (t.cur, t.drainOpen, t.gyro)) =
    some ([0x80], false, ⟨0, 0, 0⟩) := by decide

theorem test_fetch_scan : (nextOf (step (State.reset.withFetchWord 8 0x84))).map (fun t => (t.cur, t.drainOpen, t.rx)) =
    some ([0x84], false, []) := by decide +kernel

theorem test_fetch_data : (nextOf (step (State.reset.withFetchWord 8 0x05))).map (fun t => (t.cur, t.drainOpen)) =
    some ([0x05], true) := by decide

/-! ### Instructions, with the results of `spec/95_test_vectors.md` -/

/-- V1. -/
theorem test_gyro : (nextOf (exec (.gyro [0x7F, 0x7F, 0x00, 0x00, 0x01, 0x00]) State.reset)).map
    (fun t => (t.gyro.x.toInt, t.gyro.y.toInt, t.gyro.z.toInt, t.accel)) = some (-4, 0, 4, zeroVec) := by decide

/-- V4: a short frame changes not even the fields whose bytes are there. -/
theorem test_gyro_short : (nextOf (exec (.gyro [1, 0, 2, 0, 3]) { State.reset with gyro := ⟨7, 8, 9⟩ })).map State.gyro =
    some ⟨7, 8, 9⟩ := by decide

/-- V2. -/
theorem test_accel : (nextOf (exec (.accel [0x00, 0x40, 0x7F, 0x3F, 0x04, 0x02]) State.reset)).map
    (fun t => (t.accel.x.toInt, t.accel.y.toInt, t.accel.z.toInt, t.gyro)) = some (-32768, 32764, 1040, zeroVec) := by
  decide

/-- V6. -/
theorem test_accel_short : (nextOf (exec (.accel [1, 0, 2, 0, 3]) { State.reset with accel := ⟨7, 8, 9⟩ })).map
    State.accel = some ⟨7, 8, 9⟩ := by decide

/-- Sc7 and Sc8 in one payload: sample 1 goes to index 359, sample 359 to index 1. -/
theorem test_scan : (nextOf (exec (.scan ([0, 0, 1, 0] ++ List.replicate 714 0 ++ [2, 0])) State.reset)).map
    (fun t => (t.scan[0], t.scan[1], t.scan[358], t.scan[359])) = some (0, 2, 0, 1) := by decide +kernel

/-- Sc3: 719 payload bytes leave the scan as it is. -/
theorem test_scan_short : (nextOf (exec (.scan (List.replicate 719 0x68))
    { State.reset with scan := Vector.replicate 360 7 })).map (fun t => t.scan[5]) = some 7 := by decide +kernel

/-- K2: a vector payload under an unassigned opcode. -/
theorem test_unk : (nextOf (exec (.unk 0x82 [0x7F, 0x7F, 0, 0, 1, 0]) { State.reset with gyro := ⟨7, 8, 9⟩ })).map
    (fun t => (t.gyro, t.accel, t.cur)) = some (⟨7, 8, 9⟩, zeroVec, []) := by decide

/-- F1 and E10, the last byte: Frame(0x80, [05]) is a short frame. -/
theorem test_sync_emits : (nextOf (exec (.sync 0x80) (at_ [0x80, 0x05] []))).map (fun t => (t.cur, t.drainOpen, t.gyro)) =
    some ([0x80], false, zeroVec) ∧ byteStep [0x80, 0x05] 0x80 = ([0x80], some ⟨0x80, [0x05]⟩) := by decide

/-- F4, T4: a SYNC byte on an unsynced buffer emits nothing and leaves the drain open. -/
theorem test_sync_unsynced : (nextOf (exec (.sync 0x80) (at_ [0x11, 0x22] []))).map (fun t => (t.cur, t.drainOpen)) =
    some ([0x80], true) := by decide

theorem test_data : (nextOf (exec (.data 0x05) (at_ [0x80] []))).map State.cur = some [0x80, 0x05] := by decide

/-- F10: the byte that finds the buffer over the bound is kept. -/
theorem test_data_overflow : (nextOf (exec (.data 0x01) (at_ (0x80 :: List.replicate 1000 1) []))).map State.cur =
    some [0x01] := by decide +kernel

/-! ### Ticks and turns (2.2) -/

/-- T3. -/
theorem test_tick_stops_at_frame : ((tick { at_ [0x80, 0x05] [some 0x80, some 1, some 2] with drainOpen := false }).1.cur,
    (tick (at_ [0x80, 0x05] [some 0x80, some 1, some 2])).1.rx) = ([0x80], [some 1, some 2]) := by decide

/-- T4: the drain goes on past a SYNC byte that emits no Frame. -/
theorem test_tick_unsynced : ((tick (at_ [] [some 0x11, some 0x80, some 0x81, some 0x82])).1.cur,
    (tick (at_ [] [some 0x11, some 0x80, some 0x81, some 0x82])).1.rx) = ([0x81], [some 0x82]) := by decide

/-! ### Sample14, Range14 and the assembler (2.3, 2.4, 2.9) -/

/-- S9, S13, S15, S17. -/
theorem test_sample14 : [(sample14 0x7F 0x40).toInt, (sample14 0x64 0x32).toInt, (sample14 0x2A 0x55).toInt,
    (sample14 0xFF 0xFF).toInt] = [-32260, 26000, -21848, -4] := by decide

/-- Rg5, Rg8, Rg9, Rg10. -/
theorem test_range14 : [range14 0x7F 0x00, range14 0x75 0x03, range14 0x10 0x27, range14 0xFF 0xFF] =
    [127, 501, 5008, 16383] := by decide

/-- A2 and A3 at the indices 9, 10 and 11. -/
theorem test_pairs_kept : [pairAt (scanOf 10 1000 11 1500) 9, pairAt (scanOf 10 1000 11 1500) 10,
    pairAt (scanOf 10 1000 11 1500) 11, pairAt (scanOf 10 1000 11 1500) 12] =
    [some ⟨9, 10, 1000, 1000⟩, some ⟨10, 11, 1000, 1500⟩, some ⟨11, 12, 1500, 1500⟩, none] := by decide +kernel

/-- A4, A5 at index 10, A8 at 11, A6 and A7 at 359. -/
theorem test_pairs_edges : [pairAt (scanOf 10 1000 11 1501) 10, pairAt (scanOf 10 1501 11 1000) 10,
    pairAt (scanOf 10 1000 12 3000) 11, pairAt (scanOf 0 1000 359 1200) 359, pairAt (scanOf 0 1000 359 1600) 359] =
    [none, none, some ⟨11, 12, 3000, 3000⟩, some ⟨359, 0, 1200, 1000⟩, none] := by decide +kernel

/-! ### Witnesses: for each statement with hypotheses, a state and operands that meet them; where a statement has several
clauses, one for each, at the boundary of its range -/

theorem witness_ResetFromAnyState : ({ at_ [0x80, 1] [some 2] with host := [some .reset, none] } : State).host =
    some .reset :: [none] := rfl

theorem witness_IdleUntilTick : State.reset.drainOpen = false ∧ State.reset.host = [] := ⟨rfl, rfl⟩

theorem witness_DrainOpenBit_tick : ({ State.reset with host := [some .tick] } : State).host = some .tick :: [] := rfl
theorem witness_DrainOpenBit_closed : ({ State.reset with host := [none], rx := [some 0x80] } : State).hostQuiet ∧
    ({ State.reset with host := [none], rx := [some 0x80] } : State).drainOpen = false := ⟨rfl, rfl⟩
theorem witness_DrainOpenBit_noData : (at_ [0x80] []).hostQuiet ∧ (at_ [0x80] []).drainOpen = true ∧
    (at_ [0x80] []).rx.head?.join = none ∧ (at_ [0x80] [none, some 1]).rx.head?.join = none := ⟨rfl, rfl, rfl, rfl⟩
theorem witness_DrainOpenBit_byte : (at_ [0x80] [some 0x80]).hostQuiet ∧ (at_ [0x80] [some 0x80]).drainOpen = true ∧
    (at_ [0x80] [some 0x80]).rx = some 0x80 :: [] := ⟨rfl, rfl, rfl⟩

theorem witness_HostEventEffects : ({ State.reset with host := [some (.setPose ⟨⟨1⟩, ⟨2⟩, ⟨3⟩⟩)] } : State).host =
      some (.setPose ⟨⟨1⟩, ⟨2⟩, ⟨3⟩⟩) :: [] ∧
    ({ State.reset with host := [some .asmStart] } : State).host = some .asmStart :: [] := ⟨rfl, rfl⟩

theorem witness_ByteClasses : (0x80 : Byte).getLsbD 7 = true ∧ (0x7F : Byte).getLsbD 7 = false := by decide

theorem witness_FrameRows : (0x82 : Byte) ≠ 0x80 ∧ (0x82 : Byte) ≠ 0x81 ∧ (0x82 : Byte) ≠ 0x84 := by decide

theorem witness_DecodeOfEncode : (Instr.gyro [0x7F, 0x00]).wf = true ∧ (Instr.gyro [0x7F, 0x00]).isFrame = true ∧
    128 ≤ (0x80 : Byte).toNat ∧ (Instr.sync 0xFF).wf = true ∧ (Instr.sync 0xFF).isFrame = false ∧
    (Instr.data 0x00).wf = true ∧ (Instr.data 0x00).isFrame = false := by decide

theorem witness_DecodedStreamIsEncoded : decodeStream [0x80, 0x05, 0x81] = .ok (.gyro [0x05], [0x81]) ∧
    (Instr.gyro [0x05]).isFrame = true := ⟨rfl, rfl⟩

theorem witness_StepRunsDecodedByte : (at_ [] [some 0x05]).hostQuiet ∧ (at_ [] [some 0x05]).drainOpen = true ∧
    (at_ [] [some 0x05]).rx = some 0x05 :: [] := ⟨rfl, rfl, rfl⟩

theorem witness_StepRunsDecodedFrame : (Instr.gyro [1, 0, 2, 0, 3, 0]).wf = true ∧
    (Instr.gyro [1, 0, 2, 0, 3, 0]).isFrame = true ∧ (at_ [0x80, 1, 0, 2, 0, 3, 0] [some 0x81]).hostQuiet ∧
    (at_ [0x80, 1, 0, 2, 0, 3, 0] [some 0x81]).drainOpen = true ∧
    (at_ [0x80, 1, 0, 2, 0, 3, 0] [some 0x81]).cur = encode (.gyro [1, 0, 2, 0, 3, 0]) ∧
    (at_ [0x80, 1, 0, 2, 0, 3, 0] [some 0x81]).rx = some 0x81 :: [] ∧ 128 ≤ (0x81 : Byte).toNat := by decide

theorem witness_OverflowGuardFires : 1000 < (at_ (List.replicate 1001 1) []).cur.length ∧
    (at_ (List.replicate 1000 1) []).cur.length ≤ 1000 := by decide +kernel

theorem witness_DataByteAppends : (at_ (List.replicate 1000 1) []).cur.length = 1000 ∧
    (at_ (List.replicate 1001 1) []).cur.length = 1001 := by decide +kernel

theorem witness_SyncOnUnsynced : (at_ [] []).cur = [] ∧ (at_ [0x7F, 1] []).cur = 0x7F :: [1] ∧
    (0x7F : Byte).toNat < 128 ∧ 1000 < (at_ (0x80 :: List.replicate 1000 1) []).cur.length := by decide +kernel

theorem witness_SyncOnSynced : (at_ (0x80 :: List.replicate 999 1) []).cur = 0x80 :: List.replicate 999 1 ∧
    128 ≤ (0x80 : Byte).toNat ∧ (List.replicate 999 (1 : Byte)).length ≤ 999 := by decide +kernel

theorem witness_NoDataEndsDrain : (at_ [0x80, 5] [none]).hostQuiet ∧ (at_ [0x80, 5] [none]).drainOpen = true ∧
    (at_ [0x80, 5] [none]).rx.head?.join = none := ⟨rfl, rfl, rfl⟩

theorem witness_PartialFrameIsKept : (at_ [0x80, 5] [none]).hostQuiet ∧ (at_ [0x80, 5] [none]).drainOpen = true ∧
    (at_ [0x80, 5] [none]).rx.head?.join = none ∧
    (∀ r ∈ (at_ [0x80, 5] [none, none]).rx, r = none) ∧
    some HostEvent.reset ∉ ({ at_ [0x80, 5] [none, none] with host := [none, some .tick] } : State).host :=
  ⟨rfl, rfl, rfl, by simp [at_], by simp⟩

/-- A payload of equal DATA bytes. -/
theorem data_replicate (n : Nat) : ∀ d ∈ List.replicate n (1 : Byte), d.toNat < 128 := by
  intro d h; rw [(List.mem_replicate.mp h).2]; decide

theorem witness_FrameBounds : (byteStep [0x80] 0x80).2 = some ⟨0x80, []⟩ ∧ 128 ≤ (0x84 : Byte).toNat ∧
    (∀ d ∈ List.replicate 1000 (1 : Byte), d.toNat < 128) ∧ 1000 ≤ (List.replicate 1000 (1 : Byte)).length ∧
    (∀ d ∈ List.replicate 720 (1 : Byte), d.toNat < 128) ∧ (List.replicate 720 (1 : Byte)).length = 720 :=
  ⟨by decide, by decide, data_replicate 1000, by decide +kernel, data_replicate 720, by decide +kernel⟩

theorem witness_BufferInvariants : (∀ d ∈ ([0x80, 5] : List Byte).tail, d.toNat < 128) ∧
    (byteStep [0x80, 5] 0x81).2 = some ⟨0x80, [5]⟩ ∧ 128 ≤ (0x80 : Byte).toNat ∧
    (∀ d ∈ ([7] : List Byte), d.toNat < 128) ∧ ⟨0x80, [5, 7]⟩ ∈ (framesOf [0x80, 5] ([7] ++ [0x81])).2 := by decide

theorem witness_FrameCount : (∀ b ∈ ([1, 2] : List Byte), b.toNat < 128) ∧
    neverOverflows [] [0x80, 5, 0x81, 0x82] = true ∧ 128 ≤ (0x80 : Byte).toNat ∧
    neverOverflows [0x80] ([1, 2] ++ [0x81]) = true ∧
    neverOverflows [0x80] (List.replicate 1000 1 ++ [0x81]) = false := by decide +kernel

theorem witness_OneBehind : neverOverflows [] [0x80, 5, 0x81, 6, 0x82] = true ∧ (5 : Byte).toNat < 128 := by decide

theorem witness_NextSyncRecovers : 128 ≤ (0x80 : Byte).toNat ∧ (∀ d ∈ List.replicate 999 (1 : Byte), d.toNat < 128) ∧
    (List.replicate 999 (1 : Byte)).length ≤ 999 ∧ 128 ≤ (0x82 : Byte).toNat :=
  ⟨by decide, data_replicate 999, by decide +kernel, by decide⟩

theorem witness_BytesBeforeFirstSync : ∀ d ∈ ([0x11, 0x22] : List Byte), d.toNat < 128 := by decide

theorem witness_LastFrameWaits : ∀ d ∈ bytesOf (at_ [0x80] [some 5, none, some 6]).rx, d.toNat < 128 := by decide

theorem witness_BufferChanges : (nextOf (step (at_ [0x80] [some 5]))).isSome = true := by decide

theorem witness_SampleFourteenLaws : sample14 0xFF 0x7F = sample14 0x7F 0xFF ∧ (0x3F : Byte).toNat < 128 ∧
    (0x40 : Byte).toNat < 128 := by decide

theorem witness_RangeFourteenValue : (0x68 : Byte).toNat < 128 ∧ (0x07 : Byte).toNat < 128 ∧ range14 0x68 0x07 = 1000 := by
  decide

theorem witness_EncodersInvertDecoders : (-32768 : Int) % 4 = 0 ∧ (32764 : Int) % 4 = 0 ∧
    ¬((32768 : Int) % 4 = 0 ∧ -32768 ≤ (32768 : Int) ∧ (32768 : Int) ≤ 32764) ∧
    ¬((6 : Int) % 4 = 0 ∧ -32768 ≤ (6 : Int) ∧ (6 : Int) ≤ 32764) := by decide

theorem witness_GyroFrame_AccelFrame_short : ([1, 0, 2, 0, 3] : List Byte).length < 6 := by decide

theorem witness_ScanFrame_ScanIndexBijection : 720 ≤ (List.replicate 720 (1 : Byte)).length ∧
    (List.replicate 719 (1 : Byte)).length < 720 ∧ 359 < 360 := by decide +kernel

theorem witness_UnknownFrame : (0x82 : Byte) ≠ 0x80 ∧ (0x82 : Byte) ≠ 0x81 ∧ (0x82 : Byte) ≠ 0x84 ∧
    (at_ [0x82, 5] []).cur = 0x82 :: [5] ∧ 128 ≤ (0x82 : Byte).toNat ∧ ([5] : List Byte).length ≤ 999 := by decide

theorem witness_SurplusIsIgnored : 6 ≤ ([1, 2, 3, 4, 5, 6] : List Byte).length ∧
    6 ≤ ([1, 2, 3, 4, 5, 6, 7] : List Byte).length ∧
    ([1, 2, 3, 4, 5, 6] : List Byte).take 6 = ([1, 2, 3, 4, 5, 6, 7] : List Byte).take 6 ∧
    720 ≤ (List.replicate 720 (1 : Byte)).length ∧ 720 ≤ (List.replicate 721 (1 : Byte)).length ∧
    (List.replicate 720 (1 : Byte)).take 720 = (List.replicate 721 (1 : Byte)).take 720 := by decide +kernel

theorem witness_AnomaliesAreAbsorbed_overflow : isOverflow (at_ (List.replicate 1001 1) []) := by
  unfold isOverflow; decide +kernel
theorem witness_AnomaliesAreAbsorbed_short : isShortFrame ⟨0x80, [1, 0, 2, 0, 3]⟩ ∧ isShortFrame ⟨0x81, []⟩ ∧
    isShortFrame ⟨0x84, [1]⟩ :=
  ⟨.inl ⟨rfl, by decide⟩, .inr (.inl ⟨rfl, by decide⟩), .inr (.inr ⟨rfl, by decide⟩)⟩
theorem witness_AnomaliesAreAbsorbed_unknown : isUnknownFrame ⟨0x82, [1]⟩ ∧ (at_ [0x82, 1] []).cur = 0x82 :: [1] ∧
    128 ≤ (0x82 : Byte).toNat ∧ ([1] : List Byte).length ≤ 999 :=
  ⟨⟨by decide, by decide, by decide⟩, rfl, by decide, by decide⟩

theorem witness_TickPartitionIsInvisible : bytesOf (at_ [] [some 0x80, none, some 5]).rx = bytesOf (at_ [] [some 0x80, some 5]).rx ∧
    (at_ [] [some 0x80, none, some 5]).sameSensors (at_ [] [some 0x80, some 5]) ∧
    (ticks 2 (at_ [] [some 0x80, none, some 5])).rx = [] ∧ (ticks 1 (at_ [] [some 0x80, some 5])).rx = [] :=
  ⟨by decide, ⟨rfl, rfl, rfl⟩, by decide, by decide⟩

theorem witness_BacklogTakesOneTickPerFrame : none ∉ (at_ [] [some 0x80, some 0x81, some 0x82]).rx ∧
    (at_ [] [some 0x80, some 0x81, some 0x82, none, some 5]).rx = ([0x80, 0x81, 0x82] : List Byte).map some ++ [none, some 5] ∧
    2 ≤ (framesOf (at_ [] []).cur [0x80, 0x81, 0x82]).2.length := by decide

theorem witness_StepsMakeATick : ({ at_ [0x80] [some 0x80] with host := [some .tick] } : State).host = [some .tick] := rfl

theorem witness_DataBytesKeepDrainOpen : (at_ [] [some 1, some 2, some 0x80]).host = [] ∧
    (at_ [] [some 1, some 2, some 0x80]).drainOpen = true ∧
    (at_ [] [some 1, some 2, some 0x80]).rx = ([1, 2] : List Byte).map some ++ [some 0x80] ∧
    ∀ d ∈ ([1, 2] : List Byte), d.toNat < 128 := by decide

theorem witness_TakePort : (at_ [] [some 1]).hostQuiet ∧ State.rxTake (at_ [] [some 1]) = true ∧
    State.rxTake { at_ [] [some 1] with drainOpen := false } = false := ⟨rfl, rfl, rfl⟩

theorem witness_BothMissingNoSegment : (scanOf 10 1000 11 1500)[(5 : ScanIndex)] = 0 ∧
    (scanOf 10 1000 11 1500)[partner 5] = 0 ∧ (scanOf 10 1000 11 1500)[(10 : ScanIndex)] = 1000 ∧
    ∀ k : ScanIndex, emptyScan[k] = 0 := ⟨by decide, by decide, by decide, by simp [emptyScan]⟩

theorem witness_LoneMissingBorrows : (scanOf 10 1000 11 1500)[(9 : ScanIndex)] = 0 ∧
    (scanOf 10 1000 11 1500)[partner 9] ≠ 0 ∧ (scanOf 10 1000 11 1500)[(11 : ScanIndex)] ≠ 0 ∧
    (scanOf 10 1000 11 1500)[partner 11] = 0 := by decide

theorem witness_DiscontinuityIsSkipped : (scanOf 10 1000 11 1501)[(10 : ScanIndex)] = 1000 ∧
    (scanOf 10 1000 11 1501)[partner 10] = 1501 ∧ 500 < |((1000 : Range).toNat : Int) - ((1501 : Range).toNat : Int)| ∧
    (scanOf 10 1000 11 1500)[partner 10] = 1500 ∧
    |((1000 : Range).toNat : Int) - ((1500 : Range).toNat : Int)| ≤ 500 := by decide

/-- An element of the polar form with its place, and one index for each clause: two present samples at the bound of 500, a
missing first, a missing second. -/
theorem witness_ReferenceAssembly :
    (∃ n : Nat, (polarForm (scanOf 10 1000 11 1500))[n]? = some ⟨10, 11, 1000, 1500⟩) ∧
    ((scanOf 10 1000 11 1500)[(10 : ScanIndex)] ≠ 0 ∧ (scanOf 10 1000 11 1500)[(11 : ScanIndex)] ≠ 0 ∧
      |(((scanOf 10 1000 11 1500)[(10 : ScanIndex)]).toNat : Int) -
        (((scanOf 10 1000 11 1500)[(11 : ScanIndex)]).toNat : Int)| ≤ 500) ∧
    ((scanOf 0 1000 359 1200)[(358 : ScanIndex)] = 0 ∧ (scanOf 0 1000 359 1200)[(359 : ScanIndex)] ≠ 0) ∧
    ((scanOf 0 1000 359 1200)[(0 : ScanIndex)] ≠ 0 ∧ (scanOf 0 1000 359 1200)[(1 : ScanIndex)] = 0) ∧
    (0 : ScanIndex).val = ((359 : ScanIndex).val + 1) % 360 :=
  ⟨List.getElem?_of_mem (List.mem_filterMap.mpr ⟨10, List.mem_finRange _, by decide +kernel⟩), by decide +kernel,
    by decide +kernel, by decide +kernel, by decide⟩

theorem witness_PolarFormFacts : ⟨10, 11, 1000, 1500⟩ ∈ polarForm (scanOf 10 1000 11 1500) :=
  List.mem_filterMap.mpr ⟨10, List.mem_finRange _, by decide +kernel⟩

theorem witness_SegmentOrder : (∀ k : ScanIndex, emptyScan[k] = 0) ∧
    (∀ k : ScanIndex, (Vector.replicate 360 (1000 : Range))[k] = 1000) ∧ (1000 : Range) ≠ 0 ∧
    ⟨10, 11, 1000, 1500⟩ ∈ polarForm (scanOf 10 1000 11 1500) ∧
    ⟨11, 12, 1500, 1500⟩ ∈ polarForm (scanOf 10 1000 11 1500) ∧ (scanOf 10 1000 11 1500)[(11 : ScanIndex)] ≠ 0 :=
  ⟨by simp [emptyScan], by simp, by decide, List.mem_filterMap.mpr ⟨10, List.mem_finRange _, by decide +kernel⟩,
    List.mem_filterMap.mpr ⟨11, List.mem_finRange _, by decide +kernel⟩, by decide⟩

theorem witness_SegmentStream : (Snapshot.segAt ⟨zeroVec, zeroVec, scanOf 10 1000 11 1500, ⟨⟨0⟩, ⟨0⟩, ⟨0⟩⟩⟩ 10).isSome = true := by
  unfold Snapshot.segAt; rw [Option.isSome_map]; decide +kernel

/-- A step that replaces `gyro`: the closing byte of a gyro frame. -/
theorem witness_SensorStateOwnership :
    (nextOf (step (at_ [0x80, 0x7F, 0x7F, 0, 0, 1, 0] [some 0x81]))).map (fun t => decide (t.gyro = zeroVec)) = some false ∧
    (at_ [0x80, 0x7F, 0x7F, 0, 0, 1, 0] [some 0x81]).host.head?.join ≠ some .reset := by decide

theorem witness_StepKeepsTheBufferAndVectors : (at_ [0x80, 0x7F] [some 0x81]).Inv = true ∧
    (nextOf (step (at_ [0x80, 0x7F] [some 0x81]))).isSome = true := by decide

end Sys2Proof.Machine.Tests
end

section
/-! PROOFS. The turns of one step as equations: what a step answers where the host acts, where the drain is closed, where the
poll has no data, and where a byte is taken (`spec/40_framesync.md` R122). -/

namespace Sys2Proof.Machine

theorem step_of_host {s : State} {e : HostEvent} {h : List (Option HostEvent)} (hh : s.host = some e :: h) :
    step s = .next (hostStep e (s.setHost h)) := by
  simp [step, nextTurn, hh]

theorem step_of_closed {s : State} (hq : s.hostQuiet) (hd : s.drainOpen = false) :
    step s = .next (s.setHost s.host.tail) := by
  rcases step_cases s with ⟨e, h, hh, -⟩ | ⟨-, ⟨-, hs⟩ | ⟨ho, -⟩ | ⟨b, rs, ho, -⟩⟩
  · simp [State.hostQuiet, hh] at hq
  · exact hs
  · simp [hd] at ho
  · simp [hd] at ho

theorem step_of_noByte {s : State} (hq : s.hostQuiet) (hd : s.drainOpen = true) (hr : s.rx.head?.join = none) :
    step s = .next (endDrain ((s.setHost s.host.tail).setRx s.rx.tail)) := by
  rcases step_cases s with ⟨e, h, hh, -⟩ | ⟨-, ⟨hc, -⟩ | ⟨-, -, hs⟩ | ⟨b, rs, -, hb, -⟩⟩
  · simp [State.hostQuiet, hh] at hq
  · simp [hd] at hc
  · exact hs
  · simp [hb] at hr

theorem step_of_byte {s : State} {b : Byte} {rs : List (Option Byte)} (hq : s.hostQuiet) (hd : s.drainOpen = true)
    (hr : s.rx = some b :: rs) :
    step s = .next (afterByte (acceptByte (byteStep s.cur b) ((s.setHost s.host.tail).setRx rs))) := by
  rcases step_cases s with ⟨e, h, hh, -⟩ | ⟨-, ⟨hc, -⟩ | ⟨-, hn, -⟩ | ⟨b', rs', -, hb, hs⟩⟩
  · simp [State.hostQuiet, hh] at hq
  · simp [hd] at hc
  · simp [hr] at hn
  · obtain ⟨hbb, rfl⟩ := List.cons.inj (hr.symm.trans hb)
    obtain rfl := Option.some.inj hbb
    exact hs

end Sys2Proof.Machine
end

section
/-! PROOFS. What host events, ByteStep and DecodeStep leave unchanged, and what it takes for them to change something. -/

namespace Sys2Proof.Machine

/-- But for reset, no host event touches the buffer or SensorState (R21, R36). -/
theorem hostStep_keeps_cur_and_sensors {e : HostEvent} (he : e ≠ .reset) (s : State) :
    (hostStep e s).cur = s.cur ∧ s.sameSensors (hostStep e s) := by
  cases e with
  | tick => exact ⟨rfl, s.sameSensors_refl⟩
  | setPose p => exact ⟨rfl, s.sameSensors_refl⟩
  | asmStart => exact ⟨rfl, s.sameSensors_refl⟩
  | reset => exact absurd rfl he

/-- The guard keeps a buffer that is not empty exactly where it is within the bound (R113). -/
theorem overflowGuard_eq_cons_iff {cur p : List Byte} {op : Byte} :
    overflowGuard cur = op :: p ↔ cur = op :: p ∧ p.length ≤ Config.maxPayload := by
  rcases Nat.lt_or_ge Config.hw.bufBound cur.length with h | h
  · rw [overflowGuard_of_gt h]
    simp only [Config.hw_bufBound, Config.hw_maxPayload] at h ⊢
    constructor
    · simp
    · rintro ⟨rfl, hp⟩
      simp only [List.length_cons] at h
      omega
  · rw [overflowGuard_of_le h]
    simp only [Config.hw_bufBound, Config.hw_maxPayload] at h ⊢
    constructor
    · rintro rfl
      simp only [List.length_cons] at h
      exact ⟨rfl, by omega⟩
    · exact And.left

/-- ByteStep emits a Frame exactly where a SYNC byte finds the buffer synced and within the bound, and the Frame is that
buffer (R113, R114). -/
theorem byteStep_eq_frame_iff {cur : List Byte} {b : Byte} {f : Frame} :
    (byteStep cur b).2 = some f ↔
      isSync b = true ∧ isSync f.opcode = true ∧ cur = f.opcode :: f.payload ∧ f.payload.length ≤ Config.maxPayload := by
  cases hb : isSync b with
  | false => simp [byteStep_of_data hb]
  | true => simp [byteStep_of_sync hb, completedFrame_eq_some_iff, overflowGuard_eq_cons_iff]

/-- After ByteStep the buffer is the byte alone, or the byte is a DATA byte appended to it (R21). -/
theorem byteStep_buffer (cur : List Byte) (b : Byte) :
    (byteStep cur b).1 = [b] ∨ (isSync b = false ∧ (byteStep cur b).1 = cur ++ [b]) := by
  cases hb : isSync b with
  | true => simp [byteStep_of_sync hb]
  | false =>
    rw [byteStep_of_data hb]
    rcases Nat.lt_or_ge Config.hw.bufBound cur.length with h | h
    · exact .inl (by rw [overflowGuard_of_gt h]; rfl)
    · exact .inr ⟨rfl, by rw [overflowGuard_of_le h]⟩

/-- DecodeStep replaces the one object its opcode names, where the payload is long enough, or changes nothing (R140). -/
theorem decodeStep_cases (f : Frame) (s : State) :
    (∃ h : Config.hw.vecMinLen ≤ f.payload.length, f.opcode = Config.hw.opGyro ∧
      decodeStep f s = s.setGyro (vectorOperand f.payload h)) ∨
    (∃ h : Config.hw.vecMinLen ≤ f.payload.length, f.opcode = Config.hw.opAccel ∧
      decodeStep f s = s.setAccel (vectorOperand f.payload h)) ∨
    (∃ h : Config.hw.scanMinLen ≤ f.payload.length, f.opcode = Config.hw.opScan ∧
      decodeStep f s = s.setScan (scanOperand f.payload h)) ∨
    decodeStep f s = s := by
  rcases sensorEvent_cases f with ⟨h, ho, he⟩ | ⟨h, ho, he⟩ | ⟨h, ho, he⟩ | he <;> simp only [decodeStep, he]
  · exact .inl ⟨h, ho, rfl⟩
  · exact .inr (.inl ⟨h, ho, rfl⟩)
  · exact .inr (.inr (.inl ⟨h, ho, rfl⟩))
  · exact .inr (.inr (.inr rfl))

/-- What the readers are given after a byte is no part of SensorState (R57). -/
theorem afterByte_sameSensors (s : State) : s.sameSensors (afterByte s) := by simp [State.sameSensors]

/-- A taken byte that emits no Frame leaves SensorState (R149). -/
theorem acceptByte_none_sameSensors {r : List Byte × Option Frame} (h : r.2 = none) (s : State) :
    s.sameSensors (acceptByte r s) := by
  rw [acceptByte_none h]
  exact s.sameSensors_refl

/-- A taken byte that emits a Frame leaves SensorState as its decoding does (R150). -/
theorem acceptByte_some_sameSensors {r : List Byte × Option Frame} {f : Frame} (h : r.2 = some f) (s : State) :
    (decodeStep f s).sameSensors (acceptByte r s) := by
  rw [acceptByte_some h]
  exact applyEvent_sameSensors (t := s.setCur r.1) s.sameSensors_refl (sensorEvent f)

/-- A step that changes SensorState and is no reset takes the byte that completes a Frame, and decodes that Frame (R36,
R149). -/
theorem step_changes_sensors {s t : State} (hs : step s = .next t) (hreset : s.host.head?.join ≠ some .reset)
    (hne : ¬ s.sameSensors t) :
    ∃ b rs f, s.drainOpen = true ∧ s.rx = some b :: rs ∧ (byteStep s.cur b).2 = some f ∧
      (decodeStep f s).sameSensors t := by
  rcases step_cases s with ⟨e, h, hh, hn⟩ | ⟨-, ⟨-, hn⟩ | ⟨-, -, hn⟩ | ⟨b, rs, hd, hr, hn⟩⟩ <;>
    obtain rfl := Host.Outcome.next.inj (hs.symm.trans hn)
  · have he : e ≠ .reset := by rintro rfl; simp [hh] at hreset
    exact absurd (hostStep_keeps_cur_and_sensors he (s.setHost h)).2 hne
  · exact absurd s.sameSensors_refl hne
  · exact absurd s.sameSensors_refl hne
  · have hu : s.sameSensors ((s.setHost s.host.tail).setRx rs) := s.sameSensors_refl
    cases hf : (byteStep s.cur b).2 with
    | none =>
      have hsame := State.sameSensors_trans hu (acceptByte_none_sameSensors hf _)
      exact absurd (State.sameSensors_trans hsame (afterByte_sameSensors _)) hne
    | some f =>
      have hdec : (decodeStep f s).sameSensors (decodeStep f _) := applyEvent_sameSensors hu (sensorEvent f)
      have hsame := State.sameSensors_trans hdec (acceptByte_some_sameSensors hf _)
      exact ⟨b, rs, f, hd, hr, hf, State.sameSensors_trans hsame (afterByte_sameSensors _)⟩

/-- Settles O54: a step changes SensorState by decoding a completed Frame alone, and DecodeStep replaces one object. -/
theorem sensorStateOwnership : Obligations.SensorStateOwnership := by
  intro s t hs hreset hne
  obtain ⟨b, rs, f, hd, hr, hf, hdec⟩ := step_changes_sensors hs hreset hne
  obtain ⟨hb, -, hcur, hlen⟩ := byteStep_eq_frame_iff.mp hf
  refine ⟨b, rs, f.opcode, f.payload, hd, hr, (isSync_iff b).mp hb, hcur, hlen, ?_⟩
  rcases decodeStep_cases f s with ⟨h, ho, he⟩ | ⟨h, ho, he⟩ | ⟨h, ho, he⟩ | he <;> rw [he] at hdec
  · obtain ⟨-, haccel, hscan⟩ := hdec
    exact .inl ⟨ho, h, haccel.symm, hscan.symm⟩
  · obtain ⟨hgyro, -, hscan⟩ := hdec
    exact .inr (.inl ⟨ho, h, hgyro.symm, hscan.symm⟩)
  · obtain ⟨hgyro, haccel, -⟩ := hdec
    rw [State.setScan_gyro] at hgyro
    rw [State.setScan_accel] at haccel
    exact .inr (.inr ⟨ho, h, hgyro.symm, haccel.symm⟩)
  · exact absurd hdec hne

/-- Settles O27, by the turns of a step: only a reset and a taken byte touch the buffer. -/
theorem bufferChanges : Obligations.BufferChanges := by
  intro s t hs
  rcases step_cases s with ⟨e, h, hh, hn⟩ | ⟨hq, ⟨-, hn⟩ | ⟨-, -, hn⟩ | ⟨b, rs, hd, hr, hn⟩⟩ <;>
    obtain rfl := Host.Outcome.next.inj (hs.symm.trans hn)
  · by_cases he : e = .reset
    · subst he
      exact .inr (.inl ⟨by simp [hh], rfl⟩)
    · exact .inl (hostStep_keeps_cur_and_sensors he (s.setHost h)).1
  · exact .inl rfl
  · exact .inl rfl
  · refine .inr (.inr ⟨b, rs, hq, hd, hr, ?_⟩)
    rw [afterByte_cur, acceptByte_cur]
    exact (byteStep_buffer s.cur b).imp_right (And.imp_left (not_isSync_iff b).mp)

end Sys2Proof.Machine
end

section
/-! PROOFS. The pose and the snapshot reach nothing of the core (`spec/10_state.md` R26, `spec/20_memory.md` R57): two
states that differ in nothing else stay so, operation by operation. -/

namespace Sys2Proof.Machine

/-- Two states differ at most in the pose and in what the readers were given. -/
structure State.SameButPose (s t : State) : Prop where
  core : s.sameCore t
  rx : s.rx = t.rx
  host : s.host = t.host

theorem State.SameButPose.setHost {s t : State} (h : s.SameButPose t) (l : List (Option HostEvent)) :
    (s.setHost l).SameButPose (t.setHost l) := ⟨h.core, h.rx, rfl⟩

theorem State.SameButPose.setRx {s t : State} (h : s.SameButPose t) (r : List (Option Byte)) :
    (s.setRx r).SameButPose (t.setRx r) := ⟨h.core, rfl, h.host⟩

theorem State.SameButPose.setDrainOpen {s t : State} (h : s.SameButPose t) (d : Bool) :
    (s.setDrainOpen d).SameButPose (t.setDrainOpen d) :=
  have ⟨hcur, hsensors, _⟩ := h.core
  ⟨⟨hcur, hsensors, rfl⟩, h.rx, h.host⟩

theorem State.SameButPose.present {s t : State} (h : s.SameButPose t) : s.present.SameButPose t.present :=
  ⟨h.core, h.rx, h.host⟩

theorem hostStep_sameButPose {s t : State} (h : s.SameButPose t) (e : HostEvent) :
    (hostStep e s).SameButPose (hostStep e t) := by
  cases e with
  | tick => exact h.setDrainOpen true
  | setPose p => exact ⟨h.core, h.rx, h.host⟩
  | asmStart => exact h.present
  | reset => exact ⟨⟨rfl, ⟨rfl, rfl, rfl⟩, rfl⟩, h.rx, h.host⟩

theorem decodeStep_sameButPose {s t : State} (h : s.SameButPose t) (f : Frame) :
    (decodeStep f s).SameButPose (decodeStep f t) := by
  obtain ⟨⟨hcur, hsensors, hdrain⟩, hrx, hhost⟩ := h
  exact ⟨⟨by simpa using hcur, applyEvent_sameSensors hsensors _, by simpa using hdrain⟩, by simpa using hrx,
    by simpa using hhost⟩

theorem acceptByte_sameButPose {s t : State} (h : s.SameButPose t) (r : List Byte × Option Frame) :
    (acceptByte r s).SameButPose (acceptByte r t) := by
  obtain ⟨-, hsensors, hdrain⟩ := h.core
  have hset : (s.setCur r.1).SameButPose (t.setCur r.1) := ⟨⟨rfl, hsensors, hdrain⟩, h.rx, h.host⟩
  cases hf : r.2 with
  | none => simpa only [acceptByte_none hf] using hset
  | some f => simpa only [acceptByte_some hf] using (decodeStep_sameButPose hset f).setDrainOpen false

theorem afterByte_sameButPose {s t : State} (h : s.SameButPose t) : (afterByte s).SameButPose (afterByte t) := by
  obtain ⟨-, -, hdrain⟩ := h.core
  unfold afterByte
  rw [← hdrain]
  split
  · exact h
  · exact h.present

/-- Two states that differ only in the pose and the snapshot take the same turn, and step to two such states. -/
theorem step_sameButPose {s s' : State} (h : s.SameButPose s') :
    ∃ t t', step s = .next t ∧ step s' = .next t' ∧ t.SameButPose t' := by
  have ⟨⟨hcur, _, hdrain⟩, hrx, hhost⟩ := h
  rcases step_cases s with ⟨e, l, hh, hs⟩ | ⟨hq, ⟨hd, hs⟩ | ⟨hd, hr, hs⟩ | ⟨b, rs, hd, hr, hs⟩⟩
  · exact ⟨_, _, hs, step_of_host (hhost ▸ hh), hostStep_sameButPose (h.setHost l) e⟩
  · rw [hhost] at hq hs
    rw [hdrain] at hd
    exact ⟨_, _, hs, step_of_closed hq hd, h.setHost _⟩
  · rw [hhost] at hq hs
    rw [hdrain] at hd
    rw [hrx] at hr hs
    exact ⟨_, _, hs, step_of_noByte hq hd hr, (((h.setHost _).setRx _).setDrainOpen false).present⟩
  · rw [hhost] at hq hs
    rw [hdrain] at hd
    rw [hrx] at hr
    rw [hcur] at hs
    exact ⟨_, _, hs, step_of_byte hq hd hr, afterByte_sameButPose (acceptByte_sameButPose ((h.setHost _).setRx _) _)⟩

/-- Settles O55: a change of pose and snapshot alone is such a difference. -/
theorem poseDoesNotReachTheCore : Obligations.PoseDoesNotReachTheCore := by
  intro s p v
  have h : s.SameButPose { s with pose := p, snapshot := v } := ⟨⟨rfl, s.sameSensors_refl, rfl⟩, rfl, rfl⟩
  obtain ⟨t, t', hs, hs', hcore, hrx, hhost⟩ := step_sameButPose h
  exact ⟨t, t', hs, hs', hcore, hrx, hhost⟩

end Sys2Proof.Machine
end

section
/-! PROOFS. The reset state, the drain bit, the host's events, and the invariant read in numbers. -/

namespace Sys2Proof.Machine

theorem emptyScan_get (k : ScanIndex) : emptyScan[k] = Config.hw.noReturn :=
  Vector.getElem_replicate k.isLt

/-- A scan with no return anywhere has no surviving pair (R172). -/
theorem polarForm_emptyScan : polarForm emptyScan = [] :=
  List.filterMap_eq_nil_iff.mpr fun _ _ => pairAt_both_missing (emptyScan_get _) (emptyScan_get _)

/-- Settles O1, field by field; the assembler finds both samples of every pair missing. -/
theorem resetValues : Obligations.ResetValues :=
  ⟨rfl, rfl, emptyScan_get, rfl, rfl, rfl, fun _ => by
    simp [assemble, assembleWith, polarForm_emptyScan]⟩

/-- Settles O4, one turn of a step for each clause. -/
theorem drainOpenBit : Obligations.DrainOpenBit := by
  refine ⟨fun s h hh => step_of_host hh, fun s hq hd => step_of_closed hq hd, ?_, ?_⟩
  · intro s hq hd hr
    exact ⟨_, step_of_noByte hq hd hr, rfl⟩
  · intro s b rs hq hd hr
    exact ⟨_, step_of_byte hq hd hr, by simp, by simp [acceptByte_drainOpen, hd]⟩

/-- Settles O5, both by the host's turn of a step. -/
theorem hostEventEffects : Obligations.HostEventEffects :=
  fun _ _ => ⟨fun _ hh => step_of_host hh, fun hh => step_of_host hh⟩

/-- I1 and I2 of R119 in numbers. -/
theorem bufferOk_iff (cur : List Byte) :
    bufferOk cur = true ↔ cur.length ≤ 1001 ∧ ∀ d ∈ cur.tail, d.toNat < 128 := by
  rw [bufferOk, Bool.and_eq_true, decide_eq_true_iff, List.all_eq_true, Config.hw_bufCap]
  simp only [Bool.not_eq_true', not_isSync_iff]

theorem multipleOfFour_iff (v : Vec3) :
    multipleOfFour v = true ↔ v.x.toInt % 4 = 0 ∧ v.y.toInt % 4 = 0 ∧ v.z.toInt % 4 = 0 := by
  simp [multipleOfFour, and_assoc]

theorem State.inv_iff (s : State) :
    s.Inv = true ↔ bufferOk s.cur = true ∧ multipleOfFour s.gyro = true ∧ multipleOfFour s.accel = true := by
  simp [State.Inv, and_assoc]

theorem State.reset_inv : State.reset.Inv = true := by decide

/-- Settles O57: the reset state is evaluated, and the invariant is its three parts read in numbers. -/
theorem resetMeetsBufferAndVectors : Obligations.ResetMeetsBufferAndVectors :=
  ⟨State.reset_inv, fun s => by
    simp only [State.inv_iff, bufferOk_iff, multipleOfFour_iff, and_assoc]⟩

end Sys2Proof.Machine
end

section
/-! PROOFS. The encoding (`spec/30_encoding.md`): the row of a Frame and its bytes, the five shapes of a byte stream with what
the stream decoder answers on each, and the one byte of a byte-class row. -/

namespace Sys2Proof

/-- A Frame whose opcode is none of the three assigned ones is `UNK` (R89, R148). -/
theorem decodeFrame_of_other {op : Byte} (hg : op ≠ Config.hw.opGyro) (ha : op ≠ Config.hw.opAccel)
    (hs : op ≠ Config.hw.opScan) (p : List Byte) : decodeFrame ⟨op, p⟩ = .unk op p :=
  (if_neg hg).trans ((if_neg ha).trans (if_neg hs))

theorem isFrame_decodeFrame (f : Frame) : (decodeFrame f).isFrame = true := by
  rcases decodeFrame_cases f with ⟨-, h⟩ | ⟨-, h⟩ | ⟨-, h⟩ | ⟨-, -, -, h⟩ <;> rw [h] <;> rfl

/-- The bytes of a Frame's row are the Frame (R81). -/
theorem encode_decodeFrame (f : Frame) : encode (decodeFrame f) = f.opcode :: f.payload := by
  rcases decodeFrame_cases f with ⟨ho, h⟩ | ⟨ho, h⟩ | ⟨ho, h⟩ | ⟨-, -, -, h⟩
  · rw [h, ho, encode]
  · rw [h, ho, encode]
  · rw [h, ho, encode]
  · rw [h, encode]

theorem unassignedOpcode_iff (op : Byte) :
    unassignedOpcode op = true ↔
      isSync op = true ∧ op ≠ Config.hw.opGyro ∧ op ≠ Config.hw.opAccel ∧ op ≠ Config.hw.opScan := by
  simp [unassignedOpcode, isSync_eq_hasSyncPattern, and_assoc]

/-- A Frame that opens with a SYNC byte has a well-formed row exactly where its payload can be delivered (R118). -/
theorem decodeFrame_wf {f : Frame} (hop : isSync f.opcode = true) : (decodeFrame f).wf = payloadOk f.payload := by
  rcases decodeFrame_cases f with ⟨-, h⟩ | ⟨-, h⟩ | ⟨-, h⟩ | ⟨hg, ha, hs, h⟩ <;> rw [h]
  · rfl
  · rfl
  · rfl
  · rw [Instr.wf, (unassignedOpcode_iff _).mpr ⟨hop, hg, ha, hs⟩, Bool.true_and]

/-- Every well-formed frame row is the row of a Frame that opens with a SYNC byte and has a deliverable payload. -/
theorem eq_decodeFrame_of_wf {i : Instr} (hwf : i.wf = true) (hframe : i.isFrame = true) :
    ∃ f, i = decodeFrame f ∧ isSync f.opcode = true ∧ payloadOk f.payload = true := by
  cases i with
  | gyro p => exact ⟨⟨Config.hw.opGyro, p⟩, rfl, rfl, hwf⟩
  | accel p => exact ⟨⟨Config.hw.opAccel, p⟩, rfl, rfl, hwf⟩
  | scan p => exact ⟨⟨Config.hw.opScan, p⟩, rfl, rfl, hwf⟩
  | unk op p =>
    obtain ⟨hop, hp⟩ := Bool.and_eq_true_iff.mp hwf
    obtain ⟨hsync, hg, ha, hs⟩ := (unassignedOpcode_iff op).mp hop
    exact ⟨⟨op, p⟩, (decodeFrame_of_other hg ha hs p).symm, hsync, hp⟩
  | sync b => cases hframe
  | data b => cases hframe

/-- A DATA byte at the head of a stream is its own row (R92). -/
theorem decodeStream_data {b : Byte} (hb : isSync b = false) (rest : List Byte) :
    decodeStream (b :: rest) = .ok (.data b, rest) := by
  simp [decodeStream, hb]

/-- A frame that only DATA bytes follow is not known to be complete (R82, R234). -/
theorem decodeStream_open {op : Byte} (hop : isSync op = true) {ds : List Byte} (hds : ∀ d ∈ ds, isSync d = false) :
    decodeStream (op :: ds) = .error .unterminated := by
  have hrun : afterRun ds = [] := List.dropWhile_eq_nil_iff.mpr (by simpa using hds)
  simp [decodeStream, hop, hrun]

/-- A frame ends at the next SYNC byte, and is refused where the guard would destroy it (R82, R118). -/
theorem decodeStream_closed {op c : Byte} (hop : isSync op = true) (hc : isSync c = true) {ds : List Byte}
    (hds : ∀ d ∈ ds, isSync d = false) (rest : List Byte) :
    decodeStream (op :: (ds ++ c :: rest)) =
      if Config.maxPayload < ds.length then .error .overlong else .ok (decodeFrame ⟨op, ds⟩, c :: rest) := by
  simp [decodeStream, hop, afterRun_append hds hc, dataRun_append hds hc]

/-- A list of bytes holds DATA bytes only, or it has a first SYNC byte (R82: scan forward for bit 7). -/
theorem all_data_or_first_sync (bs : List Byte) :
    (∀ d ∈ bs, isSync d = false) ∨
    ∃ ds c rest, bs = ds ++ c :: rest ∧ (∀ d ∈ ds, isSync d = false) ∧ isSync c = true := by
  cases h : bs.find? isSync with
  | none => exact .inl (by simpa using h)
  | some c =>
    obtain ⟨hc, ds, rest, hbs, hds⟩ := List.find?_eq_some_iff_append.mp h
    exact .inr ⟨ds, c, rest, hbs, by simpa using hds, hc⟩

/-- What the stream decoder answers, once and for all: every stream has one of five shapes (R80, R82, R92, R118). -/
theorem decodeStream_cases (bs : List Byte) :
    (bs = [] ∧ decodeStream bs = .error .noBytes) ∨
    (∃ b rest, bs = b :: rest ∧ isSync b = false ∧ decodeStream bs = .ok (.data b, rest)) ∨
    (∃ op ds, bs = op :: ds ∧ isSync op = true ∧ (∀ d ∈ ds, isSync d = false) ∧
      decodeStream bs = .error .unterminated) ∨
    (∃ op ds c rest, bs = op :: (ds ++ c :: rest) ∧ isSync op = true ∧ (∀ d ∈ ds, isSync d = false) ∧
      isSync c = true ∧ Config.maxPayload < ds.length ∧ decodeStream bs = .error .overlong) ∨
    (∃ op ds c rest, bs = op :: (ds ++ c :: rest) ∧ isSync op = true ∧ (∀ d ∈ ds, isSync d = false) ∧
      isSync c = true ∧ ds.length ≤ Config.maxPayload ∧
      decodeStream bs = .ok (decodeFrame ⟨op, ds⟩, c :: rest)) := by
  cases bs with
  | nil => exact .inl ⟨rfl, rfl⟩
  | cons b bs =>
    cases hb : isSync b with
    | false => exact .inr (.inl ⟨b, bs, rfl, hb, decodeStream_data hb bs⟩)
    | true =>
      rcases all_data_or_first_sync bs with hds | ⟨ds, c, rest, rfl, hds, hc⟩
      · exact .inr (.inr (.inl ⟨b, bs, rfl, hb, hds, decodeStream_open hb hds⟩))
      · rcases Nat.lt_or_ge Config.maxPayload ds.length with hlen | hlen
        · exact .inr (.inr (.inr (.inl ⟨b, ds, c, rest, rfl, hb, hds, hc, hlen,
            (decodeStream_closed hb hc hds rest).trans (if_pos hlen)⟩)))
        · exact .inr (.inr (.inr (.inr ⟨b, ds, c, rest, rfl, hb, hds, hc, hlen,
            (decodeStream_closed hb hc hds rest).trans (if_neg hlen.not_gt)⟩)))

theorem decodeStream_eq_noBytes_iff (bs : List Byte) : decodeStream bs = .error .noBytes ↔ bs = [] := by
  refine ⟨fun h => ?_, fun h => h ▸ rfl⟩
  rcases decodeStream_cases bs with ⟨hbs, -⟩ | ⟨b, rest, -, -, ha⟩ | ⟨op, ds, -, -, -, ha⟩ |
    ⟨op, ds, c, rest, -, -, -, -, -, ha⟩ | ⟨op, ds, c, rest, -, -, -, -, -, ha⟩
  · exact hbs
  all_goals cases h.symm.trans ha

theorem decodeStream_eq_unterminated_iff (bs : List Byte) :
    decodeStream bs = .error .unterminated ↔
      ∃ op ds, bs = op :: ds ∧ isSync op = true ∧ ∀ d ∈ ds, isSync d = false := by
  constructor
  · intro h
    rcases decodeStream_cases bs with ⟨-, ha⟩ | ⟨b, rest, -, -, ha⟩ | ⟨op, ds, hbs, hop, hds, -⟩ |
      ⟨op, ds, c, rest, -, -, -, -, -, ha⟩ | ⟨op, ds, c, rest, -, -, -, -, -, ha⟩
    case inr.inr.inl => exact ⟨op, ds, hbs, hop, hds⟩
    all_goals cases h.symm.trans ha
  · rintro ⟨op, ds, rfl, hop, hds⟩
    exact decodeStream_open hop hds

theorem decodeStream_eq_overlong_iff (bs : List Byte) :
    decodeStream bs = .error .overlong ↔
      ∃ op ds c rest, bs = op :: (ds ++ c :: rest) ∧ isSync op = true ∧ (∀ d ∈ ds, isSync d = false) ∧
        isSync c = true ∧ Config.maxPayload < ds.length := by
  constructor
  · intro h
    rcases decodeStream_cases bs with ⟨-, ha⟩ | ⟨b, rest, -, -, ha⟩ | ⟨op, ds, -, -, -, ha⟩ |
      ⟨op, ds, c, rest, hbs, hop, hds, hc, hlen, -⟩ | ⟨op, ds, c, rest, -, -, -, -, -, ha⟩
    case inr.inr.inr.inl => exact ⟨op, ds, c, rest, hbs, hop, hds, hc, hlen⟩
    all_goals cases h.symm.trans ha
  · rintro ⟨op, ds, c, rest, rfl, hop, hds, hc, hlen⟩
    exact (decodeStream_closed hop hc hds rest).trans (if_pos hlen)

/-- A well-formed byte-class row is the row of its one byte (R80). -/
theorem decodeByte_of_encode {i : Instr} (hwf : i.wf = true) (hbyte : i.isFrame = false) :
    ∃ b, encode i = [b] ∧ decodeByte b = i := by
  cases i with
  | sync b => exact ⟨b, rfl, decodeByte_of_sync ((isSync_eq_hasSyncPattern b).trans hwf)⟩
  | data b =>
    have hdata : (!isSync b) = true := (hasDataPattern_eq_not_isSync b).symm.trans hwf
    exact ⟨b, rfl, decodeByte_of_data (by simpa using hdata)⟩
  | gyro p => cases hbyte
  | accel p => cases hbyte
  | scan p => cases hbyte
  | unk op p => cases hbyte

end Sys2Proof
end

section
/-! PROOFS. The encoders of the two operand forms take their values to DATA bytes, and Sample14 and Range14 take these back
(`spec/30_encoding.md` R94). -/

namespace Sys2Proof.Machine

/-- The two bytes of a 14-bit pattern are DATA bytes and hold its low and its high seven bits (R52, R94). -/
theorem splitQ_spec {q : Nat} (hq : q < 16384) :
    ∃ lsb msb : Byte, splitQ q = [lsb, msb] ∧ lsb.toNat < 128 ∧ msb.toNat < 128 ∧ 128 * msb.toNat + lsb.toNat = q := by
  refine ⟨_, _, rfl, ?_⟩
  simp only [BitVec.toNat_ofNat]
  omega

/-- Sample14 on two DATA bytes takes the 14-bit pattern of `v / 4` back to `v` (R94, R141). -/
theorem sample14_toInt_of_pattern {lsb msb : Byte} {v : Int} (hl : lsb.toNat < 128) (hm : msb.toNat < 128)
    (hq : ((128 * msb.toNat + lsb.toNat : Nat) : Int) = v / 4 % 16384) (h4 : v % 4 = 0) (hlo : -32768 ≤ v)
    (hhi : v ≤ 32764) : (sample14 lsb msb).toInt = v := by
  rw [BitVec.toInt_eq_toNat_cond, sample14_toNat, Nat.mod_eq_of_lt hl, Nat.mod_eq_of_lt hm, Config.widths_sampleW]
  split <;> omega

/-- `enc14s` inverts Sample14 on every value that can be sent (R94). -/
theorem enc14s_spec {v : Int} (h4 : v % 4 = 0) (hlo : -32768 ≤ v) (hhi : v ≤ 32764) :
    ∃ lsb msb : Byte, enc14s v = some [lsb, msb] ∧ lsb.toNat < 128 ∧ msb.toNat < 128 ∧
      (sample14 lsb msb).toInt = v := by
  obtain ⟨lsb, msb, hsplit, hl, hm, hq⟩ := splitQ_spec (q := (v / 4 % 16384).toNat) (by omega)
  refine ⟨lsb, msb, ?_, hl, hm, sample14_toInt_of_pattern hl hm (by omega) h4 hlo hhi⟩
  rw [enc14s, if_pos ⟨h4, hlo, hhi⟩, hsplit]

/-- `enc14u` inverts Range14 on every range (R94). -/
theorem enc14u_spec (r : Range) :
    ∃ lsb msb : Byte, enc14u r = [lsb, msb] ∧ lsb.toNat < 128 ∧ msb.toNat < 128 ∧ range14 lsb msb = r := by
  obtain ⟨lsb, msb, hsplit, hl, hm, hq⟩ := splitQ_spec (range_lt r)
  refine ⟨lsb, msb, hsplit, hl, hm, BitVec.eq_of_toNat_eq ?_⟩
  rw [range14_toNat, Nat.mod_eq_of_lt hl, Nat.mod_eq_of_lt hm, hq]

end Sys2Proof.Machine
end

section
/-! PROOFS. The statements about the encoding: the round trips of the stream decoder, its refusals, the encoders, and the rows
of bytes and Frames. -/

namespace Sys2Proof.Machine

/-- Settles O9: a well-formed frame row is the row of a Frame, which the closing SYNC byte delimits. -/
theorem decodeOfEncode : Obligations.DecodeOfEncode := by
  refine ⟨fun i c rest hwf hframe hc => ?_, fun i hwf hbyte => decodeByte_of_encode hwf hbyte⟩
  obtain ⟨f, rfl, hop, hpayload⟩ := eq_decodeFrame_of_wf hwf hframe
  obtain ⟨hlen, hdata⟩ := (payloadOk_iff f.payload).mp hpayload
  rw [encode_decodeFrame, List.cons_append, decodeStream_closed hop ((isSync_iff c).mpr hc) hdata rest,
    if_neg hlen.not_gt]

/-- Settles O10: of the five shapes of a stream the decoder answers an instruction on two. -/
theorem decodedStreamIsEncoded : Obligations.DecodedStreamIsEncoded := by
  intro bs i rest h
  rcases decodeStream_cases bs with ⟨-, ha⟩ | ⟨b, r, hbs, hb, ha⟩ | ⟨op, ds, -, -, -, ha⟩ |
    ⟨op, ds, c, r, -, -, -, -, -, ha⟩ | ⟨op, ds, c, r, hbs, hop, hds, hc, hlen, ha⟩ <;>
    cases h.symm.trans ha
  · refine ⟨?_, hbs.symm, nofun⟩
    rw [Instr.wf, hasDataPattern_eq_not_isSync, hb, Bool.not_false]
  · refine ⟨?_, ?_, fun _ => ⟨c, r, rfl, (isSync_iff c).mp hc⟩⟩
    · exact (decodeFrame_wf hop).trans ((payloadOk_iff ds).mpr ⟨hlen, hds⟩)
    · rw [encode_decodeFrame, hbs, List.cons_append]

/-- Settles O11, one refusal of the stream decoder for each clause, read in numbers. -/
theorem streamRefusals : Obligations.StreamRefusals := by
  intro bs
  simp only [← isSync_iff, ← not_isSync_iff]
  exact ⟨decodeStream_eq_noBytes_iff bs, decodeStream_eq_unterminated_iff bs, decodeStream_eq_overlong_iff bs⟩

/-- Settles O31; the eight examples are evaluated. -/
theorem encodersInvertDecoders : Obligations.EncodersInvertDecoders :=
  ⟨fun _ => enc14s_spec, fun _ h => if_neg h, enc14u_spec, by decide⟩

/-- Settles O6: the pattern of R80 and the value of R5 are one reading of bit 7. -/
theorem byteClasses : Obligations.ByteClasses := by
  intro b
  have hbit : b.getLsbD 7 = isSync b := (isSync_eq_hasSyncPattern b).symm
  rw [hbit]
  exact ⟨isSync_iff b, decodeByte_of_sync, decodeByte_of_data⟩

/-- Settles O7, by the opcode tests in their order. -/
theorem frameRows : Obligations.FrameRows :=
  fun p => ⟨rfl, rfl, rfl, fun _ hg ha hs => decodeFrame_of_other hg ha hs p⟩

/-- Settles O8, by evaluation. -/
theorem writtenWords : Obligations.WrittenWords := ⟨rfl, rfl, rfl, rfl, rfl, rfl⟩

end Sys2Proof.Machine
end

section
/-! PROOFS. The rows SYNC and DATA as equations on the whole state (`spec/40_framesync.md` R113 to R116), and the step that
takes a byte as the run of its row (R112, R122, R124). -/

namespace Sys2Proof.Machine

/-- The DATA row stores what the guard leaves with the byte appended (R116). -/
theorem exec_data (b : Byte) (s : State) :
    exec (.data b) s = .next (s.setCur (overflowGuard s.cur ++ [b])) := rfl

/-- The SYNC row on a buffer that is unsynced after the guard restarts it (R115). -/
theorem exec_sync_of_not_synced {s : State} (h : synced (overflowGuard s.cur) = false) (b : Byte) :
    exec (.sync b) s = .next (s.setCur [b]) :=
  congrArg Host.Outcome.next (acceptByte_none (completedFrame_of_not_synced h) s)

/-- The guard leaves a synced buffer within the bound as it is, and the Frame it completes is that buffer (R114). -/
theorem completedFrame_overflowGuard {f : Frame} (hop : isSync f.opcode = true)
    (hlen : f.payload.length ≤ Config.maxPayload) :
    completedFrame (overflowGuard (f.opcode :: f.payload)) = some f :=
  completedFrame_eq_some_iff.mpr ⟨hop, overflowGuard_eq_cons_iff.mpr ⟨rfl, hlen⟩⟩

/-- The SYNC row on a buffer that holds a Frame restarts it, decodes the Frame and closes the drain (R114, R122, R150). -/
theorem exec_sync_of_frame {s : State} {f : Frame} (hcur : s.cur = f.opcode :: f.payload)
    (hop : isSync f.opcode = true) (hlen : f.payload.length ≤ Config.maxPayload) (b : Byte) :
    exec (.sync b) s = .next ((decodeStep f (s.setCur [b])).setDrainOpen false) :=
  congrArg Host.Outcome.next
    (acceptByte_some (r := syncArm s.cur b) (by rw [hcur]; exact completedFrame_overflowGuard hop hlen) s)

/-- A Frame whose opcode is a DATA byte, which no buffer completes, would change nothing (R115, R148). -/
theorem exec_decodeFrame_of_data_opcode {c : Byte} (hc : isSync c = false) (p : List Byte) (s : State) :
    exec (decodeFrame ⟨c, p⟩) s = .next s := by
  have hne : ∀ op : Byte, isSync op = true → c ≠ op := by
    rintro op hop rfl
    simp [hc] at hop
  rw [decodeFrame_of_other (hne _ rfl) (hne _ rfl) (hne _ rfl) p]
  rfl

/-- Settles O14: over the bound the guard leaves the empty buffer, within it the buffer as it is. -/
theorem overflowGuardFires : Obligations.OverflowGuardFires := by
  intro s b
  constructor
  · intro hlen
    have hguard : overflowGuard s.cur = [] := overflowGuard_of_gt hlen
    exact ⟨by rw [exec_data, hguard]; rfl, exec_sync_of_not_synced (by rw [hguard]; rfl) b⟩
  · intro hlen
    have hguard : overflowGuard s.cur = s.cur := overflowGuard_of_le hlen
    exact ⟨by rw [exec_data, hguard]; rfl, hguard⟩

/-- Settles O15, by the guard's two cases at the bound and one over it. -/
theorem dataByteAppends : Obligations.DataByteAppends := by
  intro s b
  refine ⟨rfl, fun hlen => ⟨_, exec_data b s, ?_⟩, fun hlen => ⟨_, exec_data b s, ?_⟩⟩
  · rw [overflowGuard_of_le (Nat.le_of_eq hlen)]
    simp [hlen]
  · rw [overflowGuard_of_gt (by rw [hlen]; decide)]
    rfl

/-- Settles O16: the guard makes no buffer synced, and empties one over the bound. -/
theorem syncOnUnsynced : Obligations.SyncOnUnsynced := by
  refine ⟨fun s b h => exec_sync_of_not_synced ?_ b,
    fun s c r hc => exec_decodeFrame_of_data_opcode ((not_isSync_iff c).mpr hc) r s⟩
  rcases h with hnil | ⟨c, r, hcur, hc⟩ | hlen
  · exact overflowGuard_not_synced (by rw [hnil]; rfl)
  · exact overflowGuard_not_synced (by rw [hcur]; exact (not_isSync_iff c).mpr hc)
  · rw [overflowGuard_of_gt hlen]
    rfl

/-- Settles O17: the buffer passes the guard and is the Frame that ByteStep emits and the row decodes. -/
theorem syncOnSynced : Obligations.SyncOnSynced := by
  intro s b op p hcur hop hlen hb
  have hsync : isSync op = true := (isSync_iff op).mpr hop
  refine ⟨?_, _, exec_decodeFrame ⟨op, p⟩ _, exec_sync_of_frame (f := ⟨op, p⟩) hcur hsync hlen b⟩
  rw [byteStep_of_sync ((isSync_iff b).mpr hb), hcur, completedFrame_overflowGuard (f := ⟨op, p⟩) hsync hlen]

/-- Settles O12: the byte's row is its ByteStep, and `afterByte` is the rule for the readers. -/
theorem stepRunsDecodedByte : Obligations.StepRunsDecodedByte := by
  refine ⟨fun s b rs hq hd hr => ?_, fun _ => rfl⟩
  rw [step_of_byte hq hd hr, exec_decodeByte]
  rfl

/-- Settles O13: a well-formed frame row is the row of a Frame, which the closing byte's ByteStep emits. -/
theorem stepRunsDecodedFrame : Obligations.StepRunsDecodedFrame := by
  intro s i c rs hwf hframe hq hd hcur hr hc
  obtain ⟨f, rfl, hop, hpayload⟩ := eq_decodeFrame_of_wf hwf hframe
  rw [encode_decodeFrame] at hcur
  obtain ⟨hlen, -⟩ := (payloadOk_iff f.payload).mp hpayload
  have hstep : byteStep s.cur c = ([c], some f) := by
    rw [byteStep_of_sync ((isSync_iff c).mpr hc), hcur, completedFrame_overflowGuard hop hlen]
  refine ⟨_, exec_decodeFrame f _, ?_⟩
  rw [step_of_byte hq hd hr, hstep]
  rfl

/-- `rx_take` is 1 exactly where the drain is open and a byte is on offer (R124). -/
theorem rxTake_iff (s : State) : s.rxTake = true ↔ s.drainOpen = true ∧ ∃ b, s.rx = some b :: s.rx.tail := by
  unfold State.rxTake
  rcases s.rx with _ | ⟨_ | b, rs⟩ <;> simp

/-- Settles O44: with a byte on offer the port is the drain bit. -/
theorem takePort : Obligations.TakePort := by
  intro s hq
  constructor
  · intro htake
    obtain ⟨hd, b, hr⟩ := (rxTake_iff s).mp htake
    exact ⟨b, hr, step_of_byte hq hd hr⟩
  · intro htake b rs hr
    refine step_of_closed hq (Bool.eq_false_iff.mpr fun hd => ?_)
    have hopen : s.rxTake = true := (rxTake_iff s).mpr ⟨hd, b, by rw [hr]; rfl⟩
    simp [htake] at hopen

end Sys2Proof.Machine
end

section
/-! PROOFS. The invariants of the buffer (`spec/40_framesync.md` R119) and of the vectors (`spec/10_state.md` R23): ByteStep
keeps the one, DecodeStep the other, and so every step keeps both. -/

namespace Sys2Proof.Machine

/-- I1 of R119: ByteStep leaves at most `BUF_CAP` bytes, whatever it finds. -/
theorem byteStep_length_le (cur : List Byte) (b : Byte) : (byteStep cur b).1.length ≤ Config.bufCap := by
  cases hb : isSync b with
  | true =>
    rw [byteStep_of_sync hb, Config.hw_bufCap]
    exact Nat.le_add_left 1 1000
  | false =>
    rw [byteStep_of_data hb, List.length_append]
    exact Nat.succ_le_succ (overflowGuard_length cur)

theorem byteStep_ne_nil (cur : List Byte) (b : Byte) : (byteStep cur b).1 ≠ [] := by
  rcases byteStep_buffer cur b with h | ⟨-, h⟩ <;> simp [h]

/-- I2 of R119: ByteStep puts a DATA byte alone after the first byte. -/
theorem byteStep_tail_data {cur : List Byte} (h : ∀ d ∈ cur.tail, isSync d = false) (b : Byte) :
    ∀ d ∈ (byteStep cur b).1.tail, isSync d = false := by
  rcases byteStep_buffer cur b with hbuf | ⟨hb, hbuf⟩ <;> rw [hbuf]
  · simp
  · cases cur with
    | nil => simp
    | cons c cur =>
      intro d hd
      rcases List.mem_append.mp hd with hmem | hmem
      · exact h d hmem
      · rwa [List.mem_singleton.mp hmem]

/-- A Frame emitted from a buffer with only DATA bytes after its first has a payload of DATA bytes (R119). -/
theorem byteStep_payload_data {cur : List Byte} (h : ∀ d ∈ cur.tail, isSync d = false) {b : Byte} {f : Frame}
    (hf : (byteStep cur b).2 = some f) : ∀ d ∈ f.payload, isSync d = false := by
  obtain ⟨-, -, rfl, -⟩ := byteStep_eq_frame_iff.mp hf
  exact h

theorem byteStep_bufferOk {cur : List Byte} (h : bufferOk cur = true) (b : Byte) :
    bufferOk (byteStep cur b).1 = true := by
  simp only [bufferOk_iff, ← not_isSync_iff] at h ⊢
  exact ⟨byteStep_length_le cur b, byteStep_tail_data h.2 b⟩

/-- Law L3 of R142: bits 1..0 of a Sample14 are zero. -/
theorem sample14_toInt_mod_four (lsb msb : Byte) : (sample14 lsb msb).toInt % 4 = 0 := by
  rw [BitVec.toInt_eq_toNat_cond, sample14_toNat, Config.widths_sampleW]
  split <;> omega

theorem vectorOperand_multipleOfFour (p : List Byte) (h : Config.hw.vecMinLen ≤ p.length) :
    multipleOfFour (vectorOperand p h) = true :=
  (multipleOfFour_iff _).mpr
    ⟨sample14_toInt_mod_four _ _, sample14_toInt_mod_four _ _, sample14_toInt_mod_four _ _⟩

/-- The invariant speaks of the buffer and the vectors alone. -/
theorem State.setScan_inv (s : State) (w : RangeScan) : (s.setScan w).Inv = s.Inv := rfl

/-- DecodeStep keeps the invariant: it writes no vector but a Sample14 operand, and not the buffer (R140). -/
theorem decodeStep_inv {s : State} (h : s.Inv = true) (f : Frame) : (decodeStep f s).Inv = true := by
  obtain ⟨hcur, hgyro, haccel⟩ := (State.inv_iff s).mp h
  rcases decodeStep_cases f s with ⟨hlen, -, he⟩ | ⟨hlen, -, he⟩ | ⟨hlen, -, he⟩ | he <;> rw [he]
  · exact (State.inv_iff _).mpr ⟨hcur, vectorOperand_multipleOfFour _ hlen, haccel⟩
  · exact (State.inv_iff _).mpr ⟨hcur, hgyro, vectorOperand_multipleOfFour _ hlen⟩
  · rwa [State.setScan_inv]
  · exact h

/-- A byte taken keeps the invariant: ByteStep does of the buffer, and the decoding of its Frame does of the vectors. -/
theorem acceptByte_inv {s : State} (h : s.Inv = true) (b : Byte) :
    (acceptByte (byteStep s.cur b) s).Inv = true := by
  obtain ⟨hcur, hvectors⟩ := (State.inv_iff s).mp h
  have hset : (s.setCur (byteStep s.cur b).1).Inv = true :=
    (State.inv_iff _).mpr ⟨byteStep_bufferOk hcur b, hvectors⟩
  cases hf : (byteStep s.cur b).2 with
  | none => rwa [acceptByte_none hf]
  | some f =>
    rw [acceptByte_some hf]
    exact decodeStep_inv hset f

theorem afterByte_inv {s : State} (h : s.Inv = true) : (afterByte s).Inv = true := by
  unfold afterByte
  split <;> exact h

/-- No host event breaks the invariant: reset brings the reset values, the others leave buffer and vectors. -/
theorem hostStep_inv {s : State} (h : s.Inv = true) (e : HostEvent) : (hostStep e s).Inv = true := by
  cases e with
  | reset => exact State.reset_inv
  | tick => exact h
  | setPose p => exact h
  | asmStart => exact h

/-- Settles O56, by the turns of a step. -/
theorem stepKeepsTheBufferAndVectors : Obligations.StepKeepsTheBufferAndVectors := by
  intro s t h hs
  rcases step_cases s with ⟨e, l, -, hn⟩ | ⟨-, ⟨-, hn⟩ | ⟨-, -, hn⟩ | ⟨b, rs, -, -, hn⟩⟩ <;>
    obtain rfl := Host.Outcome.next.inj (hs.symm.trans hn)
  · exact hostStep_inv (s := s.setHost l) h e
  · exact h
  · exact h
  · exact afterByte_inv (acceptByte_inv (s := (s.setHost s.host.tail).setRx rs) h b)

end Sys2Proof.Machine
end

section
/-! PROOFS. Which Frames a byte sequence yields (`spec/40_framesync.md` R118 to R121): what becomes of an open frame when DATA
bytes and one more byte follow, and the opcodes of all Frames beside the SYNC bytes of the stream. -/

namespace Sys2Proof.Machine

/-- The byte after a run of DATA bytes completes the open frame exactly where it is a SYNC byte and the guard has not fired
(R113, R114, R118). -/
theorem byteStep_after_data {op : Byte} (hop : isSync op = true) {ds : List Byte} (hds : ∀ d ∈ ds, isSync d = false)
    (p : List Byte) (c : Byte) :
    (byteStep (framesOf (op :: p) ds).1 c).2 =
      if isSync c = true ∧ (op :: p).length + ds.length ≤ Config.hw.bufBound then some ⟨op, p ++ ds⟩ else none := by
  obtain ⟨hfits, hover⟩ := overflowGuard_after_data hds (op :: p)
  cases hc : isSync c with
  | false => simp [byteStep_of_data hc]
  | true =>
    simp only [byteStep_of_sync hc, true_and]
    split_ifs with hlen
    · rw [hfits hlen]
      exact completedFrame_eq_some_iff.mpr ⟨hop, rfl⟩
    · exact completedFrame_of_not_synced (hover (Nat.lt_of_not_le hlen))

/-- The Frames that an open frame, a run of DATA bytes and one more byte yield: that frame, or none. -/
theorem framesOf_after_data {op : Byte} (hop : isSync op = true) {ds : List Byte} (hds : ∀ d ∈ ds, isSync d = false)
    (p : List Byte) (c : Byte) :
    (framesOf (op :: p) (ds ++ [c])).2 =
      if isSync c = true ∧ (op :: p).length + ds.length ≤ Config.hw.bufBound then [⟨op, p ++ ds⟩] else [] := by
  rw [framesOf_concat, framesOf_of_data hds, byteStep_after_data hop hds]
  split <;> rfl

/-- An unsynced buffer emits no Frame (R115). -/
theorem byteStep_of_not_synced {cur : List Byte} (h : synced cur = false) (b : Byte) : (byteStep cur b).2 = none := by
  cases hb : isSync b with
  | false => rw [byteStep_of_data hb]
  | true =>
    rw [byteStep_of_sync hb]
    exact completedFrame_of_not_synced (overflowGuard_not_synced h)

/-- A SYNC byte cuts the stream: what follows it meets the buffer it left, whatever came before (R114, R115). -/
theorem framesOf_cut_at_sync {op : Byte} (hop : isSync op = true) (cur before rest : List Byte) :
    (framesOf cur (before ++ op :: rest)).2 = (framesOf cur (before ++ [op])).2 ++ (framesOf [op] rest).2 := by
  have hbuf : (framesOf cur (before ++ [op])).1 = [op] := by
    rw [framesOf_append]
    simp [byteStep_of_sync hop]
  rw [List.append_cons, framesOf_append, hbuf]

theorem neverOverflows_cons (cur : List Byte) (b : Byte) (bs : List Byte) :
    neverOverflows cur (b :: bs) = true ↔
      cur.length ≤ Config.hw.bufBound ∧ neverOverflows (byteStep cur b).1 bs = true := by
  simp [neverOverflows]

/-- The guard fires nowhere in a run of DATA bytes and the byte after it exactly where the buffer and the run fit the
bound (R113, R120). -/
theorem neverOverflows_after_data {ds : List Byte} (hds : ∀ d ∈ ds, isSync d = false) (cur : List Byte) (b : Byte) :
    neverOverflows cur (ds ++ [b]) = true ↔ cur.length + ds.length ≤ Config.hw.bufBound := by
  induction ds generalizing cur with
  | nil => simp [neverOverflows]
  | cons d ds ih =>
    obtain ⟨hd, hds⟩ := List.forall_mem_cons.mp hds
    rw [List.cons_append, neverOverflows_cons, ih hds, byteStep_of_data hd]
    simp only [List.length_append, List.length_cons, List.length_nil]
    constructor
    · rintro ⟨hcur, hlen⟩
      rw [overflowGuard_of_le hcur] at hlen
      omega
    · intro hlen
      have hcur : cur.length ≤ Config.hw.bufBound := by omega
      rw [overflowGuard_of_le hcur]
      omega

/-- The opcode of the frame a buffer has open, if it has one (R22). -/
def openOpcode (cur : List Byte) : List Byte := (cur.take 1).filter isSync

/-- A completed Frame has the open frame's opcode (R114, R115). -/
theorem opcode_completedFrame (cur : List Byte) :
    (completedFrame cur).toList.map Frame.opcode = openOpcode cur := by
  cases cur with
  | nil => rfl
  | cons op p => cases h : isSync op <;> simp [completedFrame, openOpcode, h]

theorem openOpcode_append_data (cur : List Byte) {d : Byte} (hd : isSync d = false) :
    openOpcode (cur ++ [d]) = openOpcode cur := by
  cases cur <;> simp [openOpcode, hd]

theorem openOpcode_overflowGuard_sublist (cur : List Byte) :
    (openOpcode (overflowGuard cur)).Sublist (openOpcode cur) := by
  unfold overflowGuard
  split
  · exact List.nil_sublist _
  · exact List.Sublist.refl _

/-- One-behind, for one byte (R121): of the opcode open after the guard and the SYNC bytes to come, all but the last are
the opcode this byte emits and then all but the last of what is open and to come after it. -/
theorem dropLast_opcodes_step (cur : List Byte) (b : Byte) (bs : List Byte) :
    (openOpcode (overflowGuard cur) ++ (b :: bs).filter isSync).dropLast =
      (byteStep cur b).2.toList.map Frame.opcode ++
        (openOpcode (byteStep cur b).1 ++ bs.filter isSync).dropLast := by
  cases hb : isSync b with
  | false => simp [byteStep_of_data hb, openOpcode_append_data, hb]
  | true =>
    rw [byteStep_of_sync hb, opcode_completedFrame, List.filter_cons_of_pos hb, List.dropLast_append_cons]
    simp [openOpcode, hb]

theorem dropLast_sublist_dropLast {α : Type} {as bs : List α} (h : as.Sublist bs) : as.dropLast.Sublist bs.dropLast := by
  simpa only [List.tail_reverse, List.reverse_sublist] using h.reverse.tail

/-- Without overflow the opcodes of the Frames are the open opcode and the SYNC bytes, but for the last (R121). -/
theorem opcodes_of_neverOverflows {cur bs : List Byte} (h : neverOverflows cur bs = true) :
    (framesOf cur bs).2.map Frame.opcode = (openOpcode cur ++ bs.filter isSync).dropLast := by
  induction bs generalizing cur with
  | nil =>
    have hlen : (openOpcode cur).length ≤ 1 := (List.length_filter_le _ _).trans (List.length_take_le _ _)
    exact (List.eq_nil_of_length_eq_zero (by simp; omega)).symm
  | cons b bs ih =>
    obtain ⟨hlen, hrest⟩ := (neverOverflows_cons cur b bs).mp h
    have hstep := dropLast_opcodes_step cur b bs
    rw [overflowGuard_of_le hlen] at hstep
    rw [framesOf_cons, List.map_append, ih hrest, hstep]

/-- With or without overflow they are a subsequence of those (R121). -/
theorem opcodes_sublist (cur bs : List Byte) :
    ((framesOf cur bs).2.map Frame.opcode).Sublist (openOpcode cur ++ bs.filter isSync).dropLast := by
  induction bs generalizing cur with
  | nil => exact List.nil_sublist _
  | cons b bs ih =>
    have hguard := dropLast_sublist_dropLast
      ((openOpcode_overflowGuard_sublist cur).append_right ((b :: bs).filter isSync))
    rw [dropLast_opcodes_step] at hguard
    rw [framesOf_cons, List.map_append]
    exact ((ih _).append_left _).trans hguard

/-- Settles O21, by ByteStep's invariants, the reset buffer, and the one Frame a run can end in. -/
theorem bufferInvariants : Obligations.BufferInvariants := by
  simp only [Obligations.BufferInvariants, ← isSync_iff, ← not_isSync_iff]
  refine ⟨fun cur b h => ⟨byteStep_length_le cur b, byteStep_tail_data h b, byteStep_ne_nil cur b,
    fun f hf d hd => Nat.le_of_lt_succ ((not_isSync_iff d).mp (byteStep_payload_data h hf d hd))⟩,
    by simp, fun op c p ds hop hds f hf => ?_⟩
  rw [framesOf_after_data hop hds] at hf
  split at hf
  · rw [List.mem_singleton.mp hf]
  · simp at hf

/-- Settles O20: a Frame is a buffer that passes the guard, and an open frame is delivered exactly where it fits. -/
theorem frameBounds : Obligations.FrameBounds := by
  simp only [Obligations.FrameBounds, ← isSync_iff, ← not_isSync_iff]
  refine ⟨fun cur b f hf => ?_, fun op c ds hop hds hlen => ?_, fun op c ds hop hds hlen hc => ?_⟩
  · obtain ⟨-, -, -, hlen⟩ := byteStep_eq_frame_iff.mp hf
    rw [Config.hw_maxPayload] at hlen
    simp only [List.length_cons]
    omega
  · rw [framesOf_after_data hop hds, if_neg]
    simp only [List.length_cons, List.length_nil, Config.hw_bufBound]
    omega
  · rw [framesOf_after_data hop hds, if_pos, List.nil_append]
    simp only [List.length_cons, List.length_nil, Config.hw_bufBound]
    exact ⟨hc, by omega⟩

/-- Settles O23: one-behind from the empty buffer, which has no opcode open. -/
theorem oneBehind : Obligations.OneBehind := by
  refine ⟨fun bs h => opcodes_of_neverOverflows h, fun bs => opcodes_sublist [] bs, fun cur d hd => ?_⟩
  rw [byteStep_of_data ((not_isSync_iff d).mpr hd)]

/-- Settles O22: the count is that of the opcodes, and a SYNC byte meets the frame the one before it opened. -/
theorem frameCount : Obligations.FrameCount := by
  simp only [Obligations.FrameCount, ← isSync_iff, ← not_isSync_iff]
  refine ⟨fun bs h => framesOf_of_data h [], fun bs h => ?_, fun ds b hds => ?_, fun before ds op b hop hds hb => ?_⟩
  · have hopcodes := congrArg List.length (opcodes_of_neverOverflows h)
    rw [List.length_map, List.length_dropLast] at hopcodes
    rw [hopcodes, Nat.zero_max, List.countP_eq_length_filter]
    rfl
  · rw [framesOf_concat, framesOf_of_data hds, byteStep_of_not_synced (framesOf_not_synced hds synced_nil)]
    rfl
  · rw [List.append_assoc, List.cons_append, framesOf_cut_at_sync hop, framesOf_after_data hop hds]
    simp only [neverOverflows_after_data hds, hb, true_and, List.nil_append]

end Sys2Proof.Machine
end

section
/-! PROOFS. The fold over a byte sequence (`spec/40_framesync.md` R123): it composes, it leaves what only the environment writes,
and it sees of a state the buffer and SensorState alone. -/

namespace Sys2Proof.Machine

/-- Two states agree on the buffer and on SensorState, all that decoding reads and writes. -/
def State.sameDecoding (s t : State) : Prop := s.cur = t.cur ∧ s.sameSensors t

theorem decodeStep_setCur (f : Frame) (s : State) (c : List Byte) :
    decodeStep f (s.setCur c) = (decodeStep f s).setCur c := by
  unfold decodeStep
  cases sensorEvent f <;> rfl

theorem decodeAll_setCur (fs : List Frame) (s : State) (c : List Byte) :
    decodeAll fs (s.setCur c) = (decodeAll fs s).setCur c := by
  induction fs generalizing s with
  | nil => rfl
  | cons f fs ih => rw [decodeAll_cons, decodeAll_cons, decodeStep_setCur, ih]

@[simp] theorem decodeAll_rx (fs : List Frame) (s : State) : (decodeAll fs s).rx = s.rx := by
  induction fs generalizing s with
  | nil => rfl
  | cons f fs ih => rw [decodeAll_cons, ih, decodeStep_rx]

@[simp] theorem decodeAll_pose (fs : List Frame) (s : State) : (decodeAll fs s).pose = s.pose := by
  induction fs generalizing s with
  | nil => rfl
  | cons f fs ih => rw [decodeAll_cons, ih, decodeStep_pose]

@[simp] theorem foldBytes_cur (bs : List Byte) (s : State) : (foldBytes bs s).cur = (framesOf s.cur bs).1 := rfl

@[simp] theorem foldBytes_rx (bs : List Byte) (s : State) : (foldBytes bs s).rx = s.rx := decodeAll_rx _ _

@[simp] theorem foldBytes_pose (bs : List Byte) (s : State) : (foldBytes bs s).pose = s.pose := decodeAll_pose _ _

/-- The fold over a concatenation is the fold over its second part from where the first ends (R123). -/
theorem foldBytes_append (as bs : List Byte) (s : State) :
    foldBytes (as ++ bs) s = foldBytes bs (foldBytes as s) := by
  rw [foldBytes, framesOf_append, decodeAll_append, foldBytes, foldBytes_cur, foldBytes, decodeAll_setCur]
  rfl

/-- A byte that completes no Frame changes only the buffer. -/
theorem foldBytes_cons_noFrame {s : State} {b : Byte} (h : (byteStep s.cur b).2 = none) (bs : List Byte) :
    foldBytes (b :: bs) s = foldBytes bs (s.setCur (byteStep s.cur b).1) := by
  have hone : foldBytes [b] s = s.setCur (byteStep s.cur b).1 := by simp [foldBytes, h]
  rw [← hone, ← foldBytes_append, List.singleton_append]

/-- A byte that completes a Frame restarts the buffer and has the Frame decoded. -/
theorem foldBytes_singleton_frame {s : State} {b : Byte} {f : Frame} (h : (byteStep s.cur b).2 = some f) :
    foldBytes [b] s = decodeStep f (s.setCur (byteStep s.cur b).1) := by
  simp [foldBytes, h, decodeStep_setCur]

theorem foldBytes_sameDecoding {s t : State} (h : s.sameDecoding t) (bs : List Byte) :
    (foldBytes bs s).sameDecoding (foldBytes bs t) := by
  obtain ⟨hcur, hsensors⟩ := h
  unfold foldBytes
  rw [hcur]
  exact ⟨rfl, decodeAll_sameSensors hsensors _⟩

theorem State.sameDecoding_symm {s t : State} (h : s.sameDecoding t) : t.sameDecoding s :=
  ⟨h.1.symm, State.sameSensors_symm h.2⟩

theorem State.sameDecoding_trans {s t u : State} (h : s.sameDecoding t) (g : t.sameDecoding u) : s.sameDecoding u :=
  ⟨h.1.trans g.1, State.sameSensors_trans h.2 g.2⟩

end Sys2Proof.Machine
end

section
/-! PROOFS. The tick (`spec/40_framesync.md` R117, R122, R123): where its drain ends and what it leaves, the fold that any number
of ticks makes, the machine's steps that make a tick, and the steps while no byte comes. -/

namespace Sys2Proof.Machine

/-- Where a drain ends (R122): it completed no Frame and came to the end of the answers or took one that is no data, or the
last byte it took completed its one Frame. -/
def DrainEnds (cur : List Byte) (taken rest : List (Option Byte)) : Prop :=
  ((framesOf cur (bytesOf taken)).2 = [] ∧
    ((none ∉ taken ∧ rest = []) ∨ ∃ bs, taken = bs ++ [none] ∧ none ∉ bs)) ∨
  ∃ bs b f, taken = bs ++ [some b] ∧ none ∉ bs ∧ (framesOf cur (bytesOf bs)).2 = [] ∧
    (framesOf cur (bytesOf taken)).2 = [f]

/-- A byte that completes no Frame may come before any drain. -/
theorem DrainEnds.cons {cur : List Byte} {b : Byte} (hb : (byteStep cur b).2 = none) {taken rest : List (Option Byte)}
    (h : DrainEnds (byteStep cur b).1 taken rest) : DrainEnds cur (some b :: taken) rest := by
  have hframes (rs : List (Option Byte)) :
      (framesOf cur (bytesOf (some b :: rs))).2 = (framesOf (byteStep cur b).1 (bytesOf rs)).2 := by simp [hb]
  rcases h with ⟨hnil, ⟨hnone, hrest⟩ | ⟨bs, rfl, hnone⟩⟩ | ⟨bs, c, f, rfl, hnone, hnil, hone⟩
  · exact .inl ⟨(hframes _).trans hnil, .inl ⟨by simpa using hnone, hrest⟩⟩
  · exact .inl ⟨(hframes _).trans hnil, .inr ⟨some b :: bs, rfl, by simpa using hnone⟩⟩
  · exact .inr ⟨some b :: bs, c, f, rfl, by simpa using hnone, (hframes _).trans hnil, (hframes _).trans hone⟩

/-- What the drain loop does (R122): it takes a front part of the answers, which ends it, and folds over its bytes. -/
theorem drainLoop_eq_foldBytes (rs : List (Option Byte)) (s : State) :
    ∃ taken rest, rs = taken ++ rest ∧ DrainEnds s.cur taken rest ∧
      drainLoop rs s = (foldBytes (bytesOf taken) (s.setRx rest)).setDrainOpen false := by
  induction rs generalizing s with
  | nil => exact ⟨[], [], rfl, .inl ⟨rfl, .inl ⟨List.not_mem_nil, rfl⟩⟩, rfl⟩
  | cons r rs ih =>
    cases r with
    | none => exact ⟨[none], rs, rfl, .inl ⟨rfl, .inr ⟨[], rfl, List.not_mem_nil⟩⟩, rfl⟩
    | some b =>
      cases hf : (byteStep s.cur b).2 with
      | some f =>
        refine ⟨[some b], rs, rfl, .inr ⟨[], b, f, rfl, List.not_mem_nil, rfl, by simp [hf]⟩, ?_⟩
        have hfold : foldBytes [b] (s.setRx rs) = decodeStep f ((s.setRx rs).setCur (byteStep s.cur b).1) :=
          foldBytes_singleton_frame hf
        rw [drainLoop_frame hf, bytesOf_cons_some, bytesOf_nil, hfold]
      | none =>
        obtain ⟨taken, rest, rfl, hends, hloop⟩ := ih ((s.setRx rs).setCur (byteStep s.cur b).1)
        refine ⟨some b :: taken, rest, rfl, hends.cons hf, ?_⟩
        rw [drainLoop_noFrame hf, hloop, bytesOf_cons_some, foldBytes_cons_noFrame (s := s.setRx rest) hf]
        rfl

/-- The state at the end of a tick (R122). -/
theorem tick_eq_foldBytes (s : State) :
    ∃ taken rest, s.rx = taken ++ rest ∧ DrainEnds s.cur taken rest ∧
      (tick s).1 = endDrain (foldBytes (bytesOf taken) ((s.setDrainOpen true).setRx rest)) := by
  obtain ⟨taken, rest, hr, hends, hloop⟩ := drainLoop_eq_foldBytes s.rx (s.setDrainOpen true)
  exact ⟨taken, rest, hr, hends, congrArg State.present hloop⟩

/-- The assembler of a tick works on the scan as updated (R122). -/
theorem tick_segments (s : State) : (tick s).2 = assemble (tick s).1.scan (tick s).1.pose := rfl

/-- Settles O39: the tick's end state is the fold over the bytes taken, with the drain closed. -/
theorem tickDrainsToOneFrame : Obligations.TickDrainsToOneFrame := by
  intro s
  obtain ⟨taken, rest, hr, hends, htick⟩ := tick_eq_foldBytes s
  have hrx : (tick s).1.rx = rest := by rw [htick, endDrain_rx, foldBytes_rx, State.setRx_rx]
  have hpose : (tick s).1.pose = s.pose := by rw [htick, endDrain_pose, foldBytes_pose]; rfl
  refine ⟨taken, by rw [hrx, hr], by rw [htick, endDrain_drainOpen], by rw [htick]; rfl, ?_, ?_, by rwa [hrx]⟩
  · have hsensors : ((s.setDrainOpen true).setRx rest).sameSensors s := s.sameSensors_refl
    rw [htick]
    exact decodeAll_sameSensors hsensors _
  · rw [tick_segments, hpose]

/-- A tick makes of buffer and SensorState what the fold over the bytes it takes makes (R123). -/
theorem tick_sameDecoding (s : State) :
    ∃ taken, s.rx = taken ++ (tick s).1.rx ∧ (tick s).1.sameDecoding (foldBytes (bytesOf taken) s) := by
  obtain ⟨taken, hr, -, hcur, hsensors, -⟩ := tickDrainsToOneFrame s
  exact ⟨taken, hr, hcur, hsensors⟩

/-- So does any number of ticks (R123). -/
theorem ticks_sameDecoding (n : Nat) (s : State) :
    ∃ taken, s.rx = taken ++ (ticks n s).rx ∧ (ticks n s).sameDecoding (foldBytes (bytesOf taken) s) := by
  induction n generalizing s with
  | zero => exact ⟨[], rfl, rfl, s.sameSensors_refl⟩
  | succ n ih =>
    obtain ⟨first, hr, hfirst⟩ := tick_sameDecoding s
    obtain ⟨later, hr', hlater⟩ := ih (tick s).1
    refine ⟨first ++ later, ?_, ?_⟩
    · rw [List.append_assoc, hr]
      exact congrArg (first ++ ·) hr'
    · rw [bytesOf_append, foldBytes_append]
      exact State.sameDecoding_trans hlater (foldBytes_sameDecoding hfirst _)

/-- Settles O40: where all answers are taken, the fold is over all their bytes. -/
theorem tickPartitionIsInvisible : Obligations.TickPartitionIsInvisible := by
  refine ⟨ticks_sameDecoding, fun n m s t hcur hsensors hbytes hs ht => ?_⟩
  have hall (k : Nat) (u : State) (hu : (ticks k u).rx = []) :
      (ticks k u).sameDecoding (foldBytes (bytesOf u.rx) u) := by
    obtain ⟨taken, hr, hfold⟩ := ticks_sameDecoding k u
    rw [hu, List.append_nil] at hr
    rwa [hr]
  have hfold := foldBytes_sameDecoding ⟨hcur, hsensors⟩ (bytesOf s.rx)
  have hright := State.sameDecoding_symm (hall m t ht)
  rw [← hbytes] at hright
  exact State.sameDecoding_trans (hall n s hs) (State.sameDecoding_trans hfold hright)

theorem runSteps_succ {s t : State} (h : step s = .next t) (n : Nat) : runSteps (n + 1) s = runSteps n t := by
  simp [runSteps, h]

theorem afterByte_of_open {s : State} (h : s.drainOpen = true) : afterByte s = s := if_pos h

theorem afterByte_of_closed {s : State} (h : s.drainOpen = false) : afterByte s = s.present := by
  simp [afterByte, h]

theorem State.hostQuiet_of_nil {s : State} (hh : s.host = []) : s.hostQuiet := by simp [State.hostQuiet, hh]

theorem State.setHost_tail_of_nil {s : State} (hh : s.host = []) : s.setHost s.host.tail = s := by
  rw [hh, List.tail_nil, ← hh, State.setHost_self]

/-- With the host doing nothing and the drain open, the machine's steps run the drain loop and then the readers (R122). -/
theorem runSteps_drainLoop (rs : List (Option Byte)) {s : State} (hh : s.host = []) (hd : s.drainOpen = true)
    (hr : s.rx = rs) : ∃ n, runSteps n s = .next (drainLoop rs s).present := by
  induction rs generalizing s with
  | nil =>
    have hs := step_of_noByte (State.hostQuiet_of_nil hh) hd (by rw [hr]; rfl)
    rw [State.setHost_tail_of_nil hh, hr] at hs
    exact ⟨1, runSteps_succ hs 0⟩
  | cons r rs ih =>
    cases r with
    | none =>
      have hs := step_of_noByte (State.hostQuiet_of_nil hh) hd (by rw [hr]; rfl)
      rw [State.setHost_tail_of_nil hh, hr] at hs
      exact ⟨1, runSteps_succ hs 0⟩
    | some b =>
      have hs := step_of_byte (State.hostQuiet_of_nil hh) hd hr
      rw [State.setHost_tail_of_nil hh] at hs
      cases hf : (byteStep s.cur b).2 with
      | some f =>
        rw [acceptByte_some hf, afterByte_of_closed rfl] at hs
        exact ⟨1, by rw [runSteps_succ hs 0, drainLoop_frame hf]; rfl⟩
      | none =>
        have hopen : ((s.setRx rs).setCur (byteStep s.cur b).1).drainOpen = true := hd
        rw [acceptByte_none hf, afterByte_of_open hopen] at hs
        obtain ⟨n, hn⟩ := ih (s := (s.setRx rs).setCur (byteStep s.cur b).1) hh hd rfl
        exact ⟨n + 1, by rw [runSteps_succ hs n, hn, drainLoop_noFrame hf]⟩

/-- Settles O42: the tick event opens the drain, and the steps after it run the drain loop. -/
theorem stepsMakeATick : Obligations.StepsMakeATick := by
  intro s hh
  obtain ⟨n, hn⟩ := runSteps_drainLoop s.rx (s := (s.setHost []).setDrainOpen true) rfl rfl rfl
  exact ⟨n + 1, (runSteps_succ (step_of_host hh) n).trans hn⟩

/-- No byte and no reset is to come. -/
structure State.AwaitsNothing (s : State) : Prop where
  noByte : ∀ r ∈ s.rx, r = none
  noReset : some HostEvent.reset ∉ s.host

/-- No host event touches the ByteSource's answers or what the host does later (R231). -/
theorem hostStep_keeps_inputs (e : HostEvent) (s : State) :
    (hostStep e s).rx = s.rx ∧ (hostStep e s).host = s.host := by
  cases e <;> exact ⟨rfl, rfl⟩

/-- While no byte and no reset is to come, a step leaves buffer and SensorState, and it stays so (R117). -/
theorem step_of_awaitsNothing {s : State} (h : s.AwaitsNothing) :
    ∃ t, step s = .next t ∧ s.sameDecoding t ∧ t.AwaitsNothing := by
  obtain ⟨hbyte, hreset⟩ := h
  have htail : some HostEvent.reset ∉ s.host.tail := fun hmem => hreset (List.mem_of_mem_tail hmem)
  rcases step_cases s with ⟨e, l, hh, hs⟩ | ⟨-, ⟨-, hs⟩ | ⟨-, -, hs⟩ | ⟨b, rs, -, hr, -⟩⟩
  · rw [hh] at hreset
    have he : e ≠ .reset := by rintro rfl; simp at hreset
    obtain ⟨hcur, hsensors⟩ := hostStep_keeps_cur_and_sensors he (s.setHost l)
    obtain ⟨hrx, hhost⟩ := hostStep_keeps_inputs e (s.setHost l)
    exact ⟨_, hs, ⟨hcur.symm, hsensors⟩, by rwa [hrx], by rw [hhost]; exact fun hmem => hreset (.tail _ hmem)⟩
  · exact ⟨_, hs, ⟨rfl, s.sameSensors_refl⟩, hbyte, htail⟩
  · exact ⟨_, hs, ⟨rfl, s.sameSensors_refl⟩, fun r hmem => hbyte r (List.mem_of_mem_tail hmem), htail⟩
  · exact absurd (hbyte (some b) (by simp [hr])) (by simp)

/-- So any number of steps leaves them (R117). -/
theorem runSteps_of_awaitsNothing (n : Nat) {s : State} (h : s.AwaitsNothing) :
    ∃ t, runSteps n s = .next t ∧ s.sameDecoding t := by
  induction n generalizing s with
  | zero => exact ⟨s, rfl, rfl, s.sameSensors_refl⟩
  | succ n ih =>
    obtain ⟨t, hs, hsame, ht⟩ := step_of_awaitsNothing h
    obtain ⟨u, hu, hsame'⟩ := ih ht
    exact ⟨u, (runSteps_succ hs n).trans hu, State.sameDecoding_trans hsame hsame'⟩

/-- Settles O19: the step of a poll with no data, and the steps while nothing comes. -/
theorem partialFrameIsKept : Obligations.PartialFrameIsKept := by
  constructor
  · intro s hq hd hr
    exact ⟨_, step_of_noByte hq hd hr, rfl, s.sameSensors_refl, rfl⟩
  · intro n s hbyte hreset
    obtain ⟨t, ht, hcur, hsensors⟩ := runSteps_of_awaitsNothing n ⟨hbyte, hreset⟩
    exact ⟨t, ht, hcur.symm, hsensors⟩

end Sys2Proof.Machine
end

section
/-! PROOFS. The two bit assemblies (`spec/41_framedecode.md` R141 to R143): the word and the number of a Sample14, the sign it
takes from bit 6 of `msb`, and the 7-bit operands that a Sample14 and a Range14 determine. -/

namespace Sys2Proof.Machine

/-- A Sample read as two's complement (R5, R141). -/
theorem sample_toInt (v : Sample) :
    v.toInt = if v.toNat < 32768 then (v.toNat : Int) else (v.toNat : Int) - 65536 := by
  simp only [BitVec.toInt_eq_toNat_cond, Config.widths_sampleW]
  split <;> split <;> omega

/-- Law L1 of R142: four times the 14-bit pattern, read as two's complement. -/
theorem sample14_toInt (lsb msb : Byte) :
    let q := 128 * (msb.toNat % 128) + lsb.toNat % 128
    (sample14 lsb msb).toInt = 4 * (if q < 8192 then (q : Int) else (q : Int) - 16384) := by
  rw [sample_toInt, sample14_toNat]
  dsimp only
  split <;> split <;> omega

/-- The word of Sample14 as R141 writes it: two shifted fields, joined by OR. -/
theorem sample14_toNat_eq_or (lsb msb : Byte) :
    (sample14 lsb msb).toNat = ((msb.toNat % 128) <<< 9 ||| (lsb.toNat % 128) <<< 2) := by
  have hlow : (lsb.toNat % 128) <<< 2 < 2 ^ 9 := by rw [Nat.shiftLeft_eq]; omega
  rw [sample14_toNat, ← Nat.shiftLeft_add_eq_or_of_lt hlow, Nat.shiftLeft_eq, Nat.shiftLeft_eq]
  omega

/-- The same for Range14 (R143). -/
theorem range14_toNat_eq_or (lsb msb : Byte) :
    (range14 lsb msb).toNat = ((msb.toNat % 128) <<< 7 ||| lsb.toNat % 128) := by
  have hlow : lsb.toNat % 128 < 2 ^ 7 := Nat.mod_lt _ (by decide)
  rw [range14_toNat, ← Nat.shiftLeft_add_eq_or_of_lt hlow, Nat.shiftLeft_eq]
  omega

/-- Bit 6 is the upper half of the 7-bit values. -/
theorem getLsbD_six_iff (b : Byte) : b.getLsbD 6 = true ↔ 64 ≤ b.toNat % 128 := by
  rw [BitVec.getLsbD, Nat.testBit_eq_decide_div_mod_eq, decide_eq_true_iff]
  omega

/-- Law L2 of R142: the sign is bit 6 of `msb`. -/
theorem sample14_toInt_neg_iff (lsb msb : Byte) : (sample14 lsb msb).toInt < 0 ↔ msb.getLsbD 6 = true := by
  rw [getLsbD_six_iff, sample14_toInt]
  split <;> omega

/-- Law L3 of R142: the bounds of a Sample14. -/
theorem sample14_toInt_bounds (lsb msb : Byte) :
    -32768 ≤ (sample14 lsb msb).toInt ∧ (sample14 lsb msb).toInt ≤ 32764 := by
  rw [sample14_toInt]
  split <;> omega

/-- Law L5 of R142: a Sample14 determines the 7-bit operands. -/
theorem sample14_inj {lsb msb lsb' msb' : Byte} (h : sample14 lsb msb = sample14 lsb' msb') :
    lsb.toNat % 128 = lsb'.toNat % 128 ∧ msb.toNat % 128 = msb'.toNat % 128 := by
  have hword := congrArg BitVec.toNat h
  rw [sample14_toNat, sample14_toNat] at hword
  omega

/-- A Range14 determines the DATA bytes it is made of (R143). -/
theorem range14_inj {lsb msb lsb' msb' : Byte} (hl : lsb.toNat < 128) (hm : msb.toNat < 128) (hl' : lsb'.toNat < 128)
    (hm' : msb'.toNat < 128) (h : range14 lsb msb = range14 lsb' msb') : lsb = lsb' ∧ msb = msb' := by
  have hword := congrArg BitVec.toNat h
  rw [range14_toNat, range14_toNat] at hword
  exact ⟨BitVec.eq_of_toNat_eq (by omega), BitVec.eq_of_toNat_eq (by omega)⟩

/-- Settles O28: the fields do not overlap, so their OR is their sum. -/
theorem sampleFourteenPlacement : Obligations.SampleFourteenPlacement := by
  refine ⟨fun lsb msb => ⟨sample14_toNat_eq_or lsb msb, ?_, sample_toInt _⟩, by decide, by decide⟩
  rw [sample14_toNat]
  omega

/-- Settles O29, law by law; the last clause is L1 with one operand 0. -/
theorem sampleFourteenLaws : Obligations.SampleFourteenLaws := by
  refine ⟨fun lsb msb => ⟨sample14_toInt lsb msb, sample14_toInt_neg_iff lsb msb, sample14_toInt_mod_four lsb msb,
    sample14_toInt_bounds lsb msb⟩, fun _ _ _ _ => sample14_inj, by decide, by decide, fun b hb => ?_⟩
  have hzero : (0 : Byte).toNat = 0 := rfl
  simp only [sample14_toInt, hzero, Nat.mod_eq_of_lt hb]
  constructor
  · split <;> omega
  · split <;> split <;> omega

/-- Settles O30: `enc14u` gives the pair of a range, and Range14 determines the pair. -/
theorem rangeFourteenValue : Obligations.RangeFourteenValue := by
  refine ⟨range14_toNat_eq_or, fun r => ?_, by decide, by decide, by decide⟩
  obtain ⟨lsb, msb, -, hl, hm, hr⟩ := enc14u_spec r
  exact ⟨lsb, msb, hl, hm, hr, fun lsb' msb' hl' hm' hr' => range14_inj hl' hm' hl hm (hr'.trans hr.symm)⟩

end Sys2Proof.Machine
end

section
/-! PROOFS. The frame rows as equations on the whole state (`spec/41_framedecode.md` R144 to R151): the length test, the object
replaced, and the payload bytes that the operand is made of. -/

namespace Sys2Proof.Machine

theorem exec_gyro_of_le {p : List Byte} (h : Config.hw.vecMinLen ≤ p.length) (s : State) :
    exec (.gyro p) s = .next (s.setGyro (vectorOperand p h)) :=
  congrArg (fun e => Host.Outcome.next (applyEvent e s)) (gyroEvent_of_le h)

theorem exec_gyro_of_lt {p : List Byte} (h : p.length < Config.hw.vecMinLen) (s : State) :
    exec (.gyro p) s = .next s :=
  congrArg (fun e => Host.Outcome.next (applyEvent e s)) (gyroEvent_of_lt h)

theorem exec_accel_of_le {p : List Byte} (h : Config.hw.vecMinLen ≤ p.length) (s : State) :
    exec (.accel p) s = .next (s.setAccel (vectorOperand p h)) :=
  congrArg (fun e => Host.Outcome.next (applyEvent e s)) (accelEvent_of_le h)

theorem exec_accel_of_lt {p : List Byte} (h : p.length < Config.hw.vecMinLen) (s : State) :
    exec (.accel p) s = .next s :=
  congrArg (fun e => Host.Outcome.next (applyEvent e s)) (accelEvent_of_lt h)

theorem exec_scan_of_le {p : List Byte} (h : Config.hw.scanMinLen ≤ p.length) (s : State) :
    exec (.scan p) s = .next (s.setScan (scanOperand p h)) :=
  congrArg (fun e => Host.Outcome.next (applyEvent e s)) (scanEvent_of_le h)

theorem exec_scan_of_lt {p : List Byte} (h : p.length < Config.hw.scanMinLen) (s : State) :
    exec (.scan p) s = .next s :=
  congrArg (fun e => Host.Outcome.next (applyEvent e s)) (scanEvent_of_lt h)

/-- A Frame of an opcode other than the three changes nothing (R148). -/
theorem decodeStep_of_other {op : Byte} (hg : op ≠ Config.hw.opGyro) (ha : op ≠ Config.hw.opAccel)
    (hs : op ≠ Config.hw.opScan) (p : List Byte) (s : State) : decodeStep ⟨op, p⟩ s = s := by
  rw [decodeStep, sensorEvent, decodeFrame_of_other hg ha hs]
  rfl

/-- Payloads that agree on their first `n` bytes agree at each index below `n`. -/
theorem getElem_eq_of_take_eq {n : Nat} {p q : List Byte} (h : p.take n = q.take n) {i : Nat} (hi : i < n)
    (hp : i < p.length) (hq : i < q.length) : p[i] = q[i] :=
  calc p[i] = (p.take n)[i]'(by simp [hi, hp]) := List.getElem_take.symm
    _ = (q.take n)[i]'(by simp [hi, hq]) := List.getElem_of_eq h _
    _ = q[i] := List.getElem_take

/-- The operand of a vector frame reads the first six payload bytes alone (R140, R151). -/
theorem vectorOperand_congr {p q : List Byte} (hp : Config.hw.vecMinLen ≤ p.length)
    (hq : Config.hw.vecMinLen ≤ q.length) (h : p.take 6 = q.take 6) : vectorOperand p hp = vectorOperand q hq := by
  have hfield {i j : Nat} (hi : i < 6) (hj : j < 6) :
      sample14 (p[i]'(hi.trans_le hp)) (p[j]'(hj.trans_le hp)) =
        sample14 (q[i]'(hi.trans_le hq)) (q[j]'(hj.trans_le hq)) :=
    congrArg₂ sample14 (getElem_eq_of_take_eq h hi _ _) (getElem_eq_of_take_eq h hj _ _)
  simp only [vectorOperand, Vec3.mk.injEq]
  exact ⟨hfield (by decide) (by decide), hfield (by decide) (by decide), hfield (by decide) (by decide)⟩

/-- The operand of a scan frame reads the first 720 payload bytes alone (R140, R151). -/
theorem scanOperand_congr {p q : List Byte} (hp : Config.hw.scanMinLen ≤ p.length)
    (hq : Config.hw.scanMinLen ≤ q.length) (h : p.take 720 = q.take 720) : scanOperand p hp = scanOperand q hq := by
  have hsample (i : ScanIndex) : scanSample p hp i = scanSample q hq i := by
    have hi := scanIndex_lt i
    exact congrArg₂ range14 (getElem_eq_of_take_eq h (by omega) _ _) (getElem_eq_of_take_eq h (by omega) _ _)
  simp only [scanOperand, hsample]

/-- Entry `k` of the operand of a scan frame is the sample the index map sends `k` to (R147). -/
theorem scanOperand_get (p : List Byte) (h : Config.hw.scanMinLen ≤ p.length) (k : ScanIndex) :
    (scanOperand p h)[k] = scanSample p h (Config.hw.scanIndex k) := by
  simp only [scanOperand, Fin.getElem_fin, Vector.getElem_ofFn, Fin.eta]

/-- A range takes two bytes of an encoded payload (R85, R93). -/
theorem encRanges_length (rs : List Range) : (encRanges rs).length = 2 * rs.length := by
  induction rs with
  | nil => rfl
  | cons r rs ih =>
    obtain ⟨lsb, msb, henc, -⟩ := enc14u_spec r
    rw [encRanges, henc, List.length_append, ih, List.length_cons]
    exact Nat.add_comm 2 _

/-- Range14 of bytes `2i` and `2i + 1` of an encoded payload is range `i` (R85, R94). -/
theorem encRanges_getElem? {rs : List Range} {i : Nat} {r : Range} (h : rs[i]? = some r) :
    ∃ lsb msb, (encRanges rs)[2 * i]? = some lsb ∧ (encRanges rs)[2 * i + 1]? = some msb ∧ range14 lsb msb = r := by
  induction rs generalizing i with
  | nil => simp at h
  | cons r' rs ih =>
    obtain ⟨lsb, msb, henc, -, -, hr⟩ := enc14u_spec r'
    rw [encRanges, henc]
    cases i with
    | zero => exact ⟨lsb, msb, rfl, rfl, hr.trans (Option.some.inj h)⟩
    | succ i => exact ih h

/-- A scan frame of 360 encoded ranges puts range `i` at index `(360 - i) mod 360` (R94, R146). -/
theorem exec_scan_encRanges (f : Nat → Range) (s : State) :
    ∃ w : RangeScan, exec (.scan (encRanges ((List.range 360).map f))) s = .next (s.setScan w) ∧
      ∀ i < 360, w[(360 - i) % 360]? = some (f i) := by
  have hlen : Config.hw.scanMinLen ≤ (encRanges ((List.range 360).map f)).length := by
    rw [encRanges_length, List.length_map, List.length_range]
    exact Nat.le_refl 720
  refine ⟨_, exec_scan_of_le hlen s, fun i hi => ?_⟩
  have hrange : ((List.range 360).map f)[i]? = some (f i) := by simp [hi]
  obtain ⟨lsb, msb, hl, hm, hw⟩ := scanOperand_getElem? _ hlen i hi
  obtain ⟨lsb', msb', hl', hm', hr⟩ := encRanges_getElem? hrange
  cases hl.symm.trans hl'
  cases hm.symm.trans hm'
  rw [hw, hr]

theorem flatMap_enc14u (f : Nat → Range) (is : List Nat) :
    (is.flatMap fun i => enc14u (f i)) = encRanges (is.map f) := by
  induction is with
  | nil => rfl
  | cons i is ih => rw [List.flatMap_cons, ih]; rfl

/-- Settles O32, by the two sides of the length test; the example's three samples are evaluated. -/
theorem gyroFrame : Obligations.GyroFrame := by
  have hlong (s : State) (xl xm yl ym zl zm : Byte) (rest : List Byte) :
      exec (.gyro (xl :: xm :: yl :: ym :: zl :: zm :: rest)) s =
        .next (s.setGyro ⟨sample14 xl xm, sample14 yl ym, sample14 zl zm⟩) :=
    exec_gyro_of_le (p := xl :: xm :: yl :: ym :: zl :: zm :: rest) (Nat.le_add_left 6 rest.length) s
  exact ⟨hlong, fun s _ hlt => exec_gyro_of_lt hlt s, fun s => hlong s _ _ _ _ _ _ []⟩

/-- Settles O33, as for GYRO. -/
theorem accelFrame : Obligations.AccelFrame := by
  have hlong (s : State) (xl xm yl ym zl zm : Byte) (rest : List Byte) :
      exec (.accel (xl :: xm :: yl :: ym :: zl :: zm :: rest)) s =
        .next (s.setAccel ⟨sample14 xl xm, sample14 yl ym, sample14 zl zm⟩) :=
    exec_accel_of_le (p := xl :: xm :: yl :: ym :: zl :: zm :: rest) (Nat.le_add_left 6 rest.length) s
  exact ⟨hlong, fun s _ hlt => exec_accel_of_lt hlt s, fun s => hlong s _ _ _ _ _ _ []⟩

/-- Settles O34: the operand entry by entry; the example's payload encodes the ranges 1000 to 1359. -/
theorem scanFrame : Obligations.ScanFrame := by
  refine ⟨fun s p hlen => ⟨_, exec_scan_of_le hlen s, scanOperand_getElem? p hlen⟩,
    fun s _ hlt => exec_scan_of_lt hlt s, fun s => ?_⟩
  rw [flatMap_enc14u]
  obtain ⟨w, hexec, hentry⟩ := exec_scan_encRanges (fun i => BitVec.ofNat 14 (1000 + i)) s
  simp only [Vector.getElem_eq_iff]
  exact ⟨w, hexec, hentry 0 (by decide), hentry 359 (by decide), hentry 358 (by decide), hentry 1 (by decide)⟩

/-- Settles O35: a map that is its own inverse is a bijection. -/
theorem scanIndexBijection : Obligations.ScanIndexBijection := by
  have hinv : Function.Involutive Config.hw.scanIndex := scanIndex_scanIndex
  refine ⟨hinv.bijective, fun i => ⟨Config.hw_scanIndex_val i, scanIndex_scanIndex i⟩, fun s p hlen => ?_⟩
  refine ⟨_, exec_scan_of_le hlen s, fun k => ?_⟩
  exact ⟨p[2 * ((360 - k.val) % 360)], p[2 * ((360 - k.val) % 360) + 1], by simp, by simp, scanOperand_get p hlen k⟩

/-- Settles O37: the operands read the compared bytes alone. -/
theorem surplusIsIgnored : Obligations.SurplusIsIgnored := by
  refine fun s p q => ⟨fun hp hq h => ?_, fun hp hq h => ?_⟩
  · rw [exec_gyro_of_le hp, exec_gyro_of_le hq, exec_accel_of_le hp, exec_accel_of_le hq, vectorOperand_congr hp hq h]
    exact ⟨rfl, rfl⟩
  · rw [exec_scan_of_le hp, exec_scan_of_le hq, scanOperand_congr hp hq h]

/-- Settles O36: the closing SYNC byte runs the SYNC row on a Frame whose decoding changes nothing. -/
theorem unknownFrame : Obligations.UnknownFrame := by
  refine ⟨fun _ _ _ => rfl, fun s op b p hg ha hs => ⟨?_, fun hcur hop hlen => ?_⟩⟩
  · rw [exec_decodeFrame, decodeStep_of_other hg ha hs]
  · rw [exec_sync_of_frame (f := ⟨op, p⟩) hcur ((isSync_iff op).mpr hop) hlen b, decodeStep_of_other hg ha hs]
    rfl

end Sys2Proof.Machine
end

section
/-! PROOFS. The filter stage of the assembler (`spec/42_lidar_assembler.md` R171 to R174): the distances that the substitution
yields, the one membership rule of the polar form, its elements case by case, and their order. -/

namespace Sys2Proof.Machine

/-- The distance of the first endpoint (R173). -/
theorem borrow_fst (d1 d2 : Range) : (borrow d1 d2).1 = if d1 = Config.hw.noReturn then d2 else d1 := by
  unfold borrow
  split_ifs <;> rfl

/-- The distance of the second endpoint (R173). -/
theorem borrow_snd (d1 d2 : Range) : (borrow d1 d2).2 = if d2 = Config.hw.noReturn then d1 else d2 := by
  unfold borrow
  split_ifs with h1 h2
  · exact h2.trans h1.symm
  · rfl
  · rfl
  · rfl

theorem borrow_first_missing {d1 : Range} (h1 : d1 = Config.hw.noReturn) (d2 : Range) : borrow d1 d2 = (d2, d2) :=
  if_pos h1

theorem borrow_second_missing {d1 d2 : Range} (h1 : d1 ≠ Config.hw.noReturn) (h2 : d2 = Config.hw.noReturn) :
    borrow d1 d2 = (d1, d1) :=
  (if_neg h1).trans (if_pos h2)

theorem borrow_present {d1 d2 : Range} (h1 : d1 ≠ Config.hw.noReturn) (h2 : d2 ≠ Config.hw.noReturn) :
    borrow d1 d2 = (d1, d2) :=
  (if_neg h1).trans (if_neg h2)

/-- Equal distances are no discontinuity (R173). -/
theorem distanceGap_self_le (d : Range) : distanceGap d d ≤ Config.hw.discMm := by
  rw [distanceGap, sub_self]
  exact Nat.zero_le _

theorem distanceGap_le_iff (d1 d2 : Range) :
    distanceGap d1 d2 ≤ Config.hw.discMm ↔ |(d1.toNat : Int) - (d2.toNat : Int)| ≤ 500 := by
  rw [← distanceGap_cast, Config.hw_discMm]
  omega

/-- Which elements the polar form has: those of a pair and its partner, not both missing, with the distances after the
substitution, where these are no discontinuity (R171 to R174, R178). -/
theorem mem_polarForm_iff {scan : RangeScan} {i j : ScanIndex} {d1 d2 : Range} :
    ⟨i, j, d1, d2⟩ ∈ polarForm scan ↔ j = partner i ∧
      ¬(scan[i] = Config.hw.noReturn ∧ scan[j] = Config.hw.noReturn) ∧
      (d1, d2) = borrow scan[i] scan[j] ∧ distanceGap d1 d2 ≤ Config.hw.discMm := by
  rw [mem_polarForm]
  constructor
  · intro h
    obtain rfl : j = partner i := (pairAt_indices h).2
    exact ⟨rfl, pairAt_eq_some h⟩
  · rintro ⟨rfl, hpresent, hd, hgap⟩
    simp only [pairAt, if_neg hpresent, ← hd, if_neg hgap.not_gt]

/-- A lone missing first sample (R173). -/
theorem mem_polarForm_first_missing {scan : RangeScan} {i : ScanIndex} (h1 : scan[i] = Config.hw.noReturn)
    (h2 : scan[partner i] ≠ Config.hw.noReturn) : ⟨i, partner i, scan[partner i], scan[partner i]⟩ ∈ polarForm scan :=
  mem_polarForm_iff.mpr ⟨rfl, fun h => h2 h.2, (borrow_first_missing h1 _).symm, distanceGap_self_le _⟩

/-- A lone missing second sample (R173). -/
theorem mem_polarForm_second_missing {scan : RangeScan} {i : ScanIndex} (h1 : scan[i] ≠ Config.hw.noReturn)
    (h2 : scan[partner i] = Config.hw.noReturn) : ⟨i, partner i, scan[i], scan[i]⟩ ∈ polarForm scan :=
  mem_polarForm_iff.mpr ⟨rfl, fun h => h1 h.1, (borrow_second_missing h1 h2).symm, distanceGap_self_le _⟩

/-- Two present samples that are no discontinuity (R174). -/
theorem mem_polarForm_present {scan : RangeScan} {i : ScanIndex} (h1 : scan[i] ≠ Config.hw.noReturn)
    (h2 : scan[partner i] ≠ Config.hw.noReturn)
    (hgap : |((scan[i]).toNat : Int) - ((scan[partner i]).toNat : Int)| ≤ 500) :
    ⟨i, partner i, scan[i], scan[partner i]⟩ ∈ polarForm scan :=
  mem_polarForm_iff.mpr ⟨rfl, fun h => h1 h.1, (borrow_present h1 h2).symm, (distanceGap_le_iff _ _).mpr hgap⟩

/-- The distances of an element, each said by its own entry and the other (R173). -/
theorem polarForm_distances {scan : RangeScan} {q : Polar} (hq : q ∈ polarForm scan) :
    q.d1 = (if scan[q.i] = Config.hw.noReturn then scan[q.j] else scan[q.i]) ∧
    q.d2 = (if scan[q.j] = Config.hw.noReturn then scan[q.i] else scan[q.j]) := by
  obtain ⟨-, -, hd, -⟩ := mem_polarForm_iff.mp hq
  rw [← borrow_fst, ← borrow_snd, ← hd]
  exact ⟨rfl, rfl⟩

/-- No element has a missing distance (R178). -/
theorem polarForm_distances_ne_noReturn {scan : RangeScan} {q : Polar} (hq : q ∈ polarForm scan) :
    q.d1 ≠ Config.hw.noReturn ∧ q.d2 ≠ Config.hw.noReturn := by
  obtain ⟨-, hpresent, -⟩ := mem_polarForm_iff.mp hq
  obtain ⟨hd1, hd2⟩ := polarForm_distances hq
  rw [hd1, hd2]
  constructor
  · split_ifs with h
    · exact fun h' => hpresent ⟨h, h'⟩
    · exact h
  · split_ifs with h
    · exact fun h' => hpresent ⟨h', h⟩
    · exact h

/-- A present distance in numbers (R178). -/
theorem range_bounds_of_present {d : Range} (hd : d ≠ Config.hw.noReturn) : 1 ≤ d.toNat ∧ d.toNat ≤ 16383 :=
  ⟨Nat.one_le_iff_ne_zero.mpr fun h => hd (BitVec.eq_of_toNat_eq h), Nat.le_of_lt_succ (range_lt d)⟩

theorem polarForm_eq_nil {scan : RangeScan} (h : ∀ k : ScanIndex, scan[k] = Config.hw.noReturn) : polarForm scan = [] :=
  List.filterMap_eq_nil_iff.mpr fun _ _ => pairAt_both_missing (h _) (h _)

theorem polarForm_pairwise_lt (scan : RangeScan) : (polarForm scan).Pairwise fun q r => q.i < r.i := by
  refine List.pairwise_filterMap.mpr ((List.pairwise_lt_finRange _).imp fun hlt q hq r hr => ?_)
  rwa [(pairAt_indices hq).1, (pairAt_indices hr).1]

theorem polarForm_length_le (scan : RangeScan) : (polarForm scan).length ≤ Config.widths.scanN :=
  (List.length_filterMap_le _ _).trans_eq (List.length_finRange ..)

/-- Where the filter stage skips no index, the polar form has an element for each. -/
theorem polarForm_length_of_isSome {scan : RangeScan} (h : ∀ i, (pairAt scan i).isSome) :
    (polarForm scan).length = Config.widths.scanN := by
  rw [polarForm, List.length_filterMap_eq_countP, List.countP_eq_length.mpr fun i _ => h i, List.length_finRange]

/-- Settles O45: an element needs one of its two samples. -/
theorem bothMissingNoSegment : Obligations.BothMissingNoSegment := by
  refine ⟨?_, fun scan pose h => ?_⟩
  · rintro scan i h1 h2 ⟨k, j, d1, d2⟩ hq (rfl : k = i)
    obtain ⟨rfl, hpresent, -⟩ := mem_polarForm_iff.mp hq
    exact hpresent ⟨h1, h2⟩
  · rw [assemble, assembleWith, polarForm_eq_nil h, List.map_nil]

/-- Settles O46, a lone missing sample first or second. -/
theorem loneMissingBorrows : Obligations.LoneMissingBorrows :=
  fun _ _ => ⟨mem_polarForm_first_missing, mem_polarForm_second_missing⟩

/-- Settles O47: two present samples stand as they are, so the element's gap is theirs. -/
theorem discontinuityIsSkipped : Obligations.DiscontinuityIsSkipped := by
  refine fun scan i h1 h2 => ⟨?_, mem_polarForm_present h1 h2⟩
  rintro hfar ⟨k, j, d1, d2⟩ hq (rfl : k = i)
  obtain ⟨rfl, -, hd, hgap⟩ := mem_polarForm_iff.mp hq
  cases hd.trans (borrow_present h1 h2)
  exact absurd ((distanceGap_le_iff _ _).mp hgap) hfar.not_ge

/-- Settles O48, from the membership rule of the polar form. -/
theorem polarFormFacts : Obligations.PolarFormFacts := by
  refine ⟨fun scan q hq => ?_, fun _ _ => rfl⟩
  have hentry {e o : Range} : (if e = Config.hw.noReturn then o else e) = e ∨
      (e = 0 ∧ (if e = Config.hw.noReturn then o else e) = o) := by
    by_cases h : e = Config.hw.noReturn
    · exact .inr ⟨h, if_pos h⟩
    · exact .inl (if_neg h)
  obtain ⟨hj, -, -, hgap⟩ := mem_polarForm_iff.mp hq
  obtain ⟨hd1, hd2⟩ := polarForm_distances hq
  obtain ⟨hne1, hne2⟩ := polarForm_distances_ne_noReturn hq
  obtain ⟨hlo1, hhi1⟩ := range_bounds_of_present hne1
  obtain ⟨hlo2, hhi2⟩ := range_bounds_of_present hne2
  exact ⟨by rw [hj, partner_val], hlo1, hhi1, hlo2, hhi2, (distanceGap_le_iff _ _).mp hgap, hd1 ▸ hentry, hd2 ▸ hentry⟩

/-- Settles O49: the indices come in their own order, equal present entries have no gap, and a present shared entry is the
distance of both its endpoints. -/
theorem segmentOrder : Obligations.SegmentOrder := by
  refine ⟨fun scan => ⟨polarForm_pairwise_lt scan, polarForm_length_le scan⟩, fun _ => polarForm_eq_nil,
    fun scan d hd h => polarForm_length_of_isSome fun i => ?_, fun scan pose q hq ⟨i, j, d1, d2⟩ hr hi hpresent => ?_⟩
  · have hne (k : ScanIndex) : scan[k] ≠ Config.hw.noReturn := (h k).trans_ne hd
    have hgap : |((scan[i]).toNat : Int) - ((scan[partner i]).toNat : Int)| ≤ 500 := by simp [h]
    rw [mem_polarForm.mp (mem_polarForm_present (hne i) (hne (partner i)) hgap)]
    rfl
  · have hstop : q.d2 = scan[q.j] := (polarForm_distances hq).2.trans (if_neg hpresent)
    obtain rfl : i = q.j := hi
    have hstart : d1 = scan[q.j] := (polarForm_distances hr).1.trans (if_neg hpresent)
    rw [placePair, placePair, hstop, hstart]

/-- Settles O50: the stream is the filter stage with each element placed where it is answered. -/
theorem segmentStream : Obligations.SegmentStream := by
  refine fun v => ⟨?_, fun i j seg h => ?_⟩
  · have hshown (i : ScanIndex) :
        (v.segAt i).map Prod.snd = (pairAt v.scan i).map (placePair (Config.place v.pose)) := Option.map_map ..
    simp only [hshown]
    exact List.map_filterMap.symm
  · obtain ⟨q, -, hq⟩ := Option.map_eq_some_iff.mp h
    exact (congrArg Prod.fst hq).symm

end Sys2Proof.Machine
end

section
/-! PROOFS. The reference placement (`spec/42_lidar_assembler.md` R175, R176): the relation is the graph of one endpoint
function, so the reference assembly is Assemble under that function. -/

namespace Sys2Proof.Machine

/-- The endpoint `P(k, d)` of R175 as a function; `isRefPoint_iff` ties it to the model's relation. -/
noncomputable def refEndpoint (pose : RefPose) (k : ScanIndex) (d : Range) : RefPoint where
  x := pose.x + (d.toNat : ℝ) * Real.cos ((pose.heading + (k.val : ℝ)) * Real.pi / 180)
  y := pose.y + (d.toNat : ℝ) * Real.sin ((pose.heading + (k.val : ℝ)) * Real.pi / 180)

theorem isRefPoint_iff {pose : RefPose} {k : ScanIndex} {d : Range} {p : RefPoint} :
    IsRefPoint pose k d p ↔ p = refEndpoint pose k d := by
  obtain ⟨x, y⟩ := p
  exact (RefPoint.mk.injEq ..).to_iff.symm

theorem isRefSegment_iff {pose : RefPose} {q : Polar} {seg : SegmentOf RefPoint} :
    IsRefSegment pose q seg ↔ placePair (refEndpoint pose) q = seg := by
  obtain ⟨start, stop⟩ := seg
  rw [IsRefSegment, isRefPoint_iff, isRefPoint_iff, placePair, SegmentOf.mk.injEq, eq_comm, @eq_comm _ stop]

/-- The reference assembly is Assemble under the endpoint function. -/
theorem isRefAssembly_iff {scan : RangeScan} {pose : RefPose} {out : List (SegmentOf RefPoint)} :
    IsRefAssembly scan pose out ↔ assembleWith (refEndpoint pose) scan = out := by
  have hrel : IsRefSegment pose = fun q seg => placePair (refEndpoint pose) q = seg :=
    funext₂ fun _ _ => propext isRefSegment_iff
  rw [IsRefAssembly, hrel, assembleWith, ← List.forall₂_map_left_iff, List.forall₂_eq_eq_eq]

theorem degrees_add_full_turn (a : ℝ) : (a + 360) * Real.pi / 180 = a * Real.pi / 180 + 2 * Real.pi := by ring

/-- `cosd` has period 360 (R9). -/
theorem cos_degrees_add_full_turn (a : ℝ) : Real.cos ((a + 360) * Real.pi / 180) = Real.cos (a * Real.pi / 180) := by
  rw [degrees_add_full_turn, Real.cos_add_two_pi]

/-- `sind` has period 360 (R9). -/
theorem sin_degrees_add_full_turn (a : ℝ) : Real.sin ((a + 360) * Real.pi / 180) = Real.sin (a * Real.pi / 180) := by
  rw [degrees_add_full_turn, Real.sin_add_two_pi]

theorem cos_ninety_degrees : Real.cos (90 * Real.pi / 180) = 0 := by
  rw [show 90 * Real.pi / 180 = Real.pi / 2 by ring, Real.cos_pi_div_two]

theorem sin_ninety_degrees : Real.sin (90 * Real.pi / 180) = 1 := by
  rw [show 90 * Real.pi / 180 = Real.pi / 2 by ring, Real.sin_pi_div_two]

/-- The reference endpoint where the index and the distance are given as numbers (R175). -/
theorem isRefPoint_of_numbers {pose : RefPose} {k : ScanIndex} {d : Range} {p : RefPoint} {kn dn : ℕ} (hk : k.val = kn)
    (hd : d.toNat = dn) : IsRefPoint pose k d p ↔
      p.x = pose.x + (dn : ℝ) * Real.cos ((pose.heading + (kn : ℝ)) * Real.pi / 180) ∧
      p.y = pose.y + (dn : ℝ) * Real.sin ((pose.heading + (kn : ℝ)) * Real.pi / 180) := by
  rw [IsRefPoint, hk, hd]

/-- A pair whose samples are kept or borrowed has its element, for any spelling of its partner (R173, R174). -/
theorem mem_polarForm_of_samples {scan : RangeScan} {i j : ScanIndex} {d1 d2 : Range} (hj : j.val = (i.val + 1) % 360)
    (h : (scan[i] ≠ 0 ∧ scan[j] ≠ 0 ∧ |((scan[i]).toNat : Int) - ((scan[j]).toNat : Int)| ≤ 500 ∧
          d1 = scan[i] ∧ d2 = scan[j]) ∨
        (scan[i] = 0 ∧ scan[j] ≠ 0 ∧ d1 = scan[j] ∧ d2 = scan[j]) ∨
        (scan[i] ≠ 0 ∧ scan[j] = 0 ∧ d1 = scan[i] ∧ d2 = scan[i])) : ⟨i, j, d1, d2⟩ ∈ polarForm scan := by
  obtain rfl : j = partner i := Fin.ext hj
  rcases h with ⟨h1, h2, hgap, rfl, rfl⟩ | ⟨h1, h2, rfl, rfl⟩ | ⟨h1, h2, rfl, rfl⟩
  · exact mem_polarForm_present h1 h2 hgap
  · exact mem_polarForm_first_missing h1 h2
  · exact mem_polarForm_second_missing h1 h2

/-- Settles O51: the endpoint is a function, a full turn changes no cosine and no sine, and the vectors lie at 0, 90 and 180
degrees. -/
theorem referencePlacement : Obligations.ReferencePlacement := by
  refine ⟨fun pose k d => ⟨_, isRefPoint_iff.mpr rfl, fun _ => isRefPoint_iff.mp⟩, fun pose k d p => ?_,
    fun pose d p => ?_, ?_, ?_, ?_⟩
  · simp only [IsRefPoint, add_right_comm pose.heading 360, cos_degrees_add_full_turn, sin_degrees_add_full_turn]
  · rw [isRefPoint_of_numbers (kn := 0) rfl rfl, cos_degrees_add_full_turn, sin_degrees_add_full_turn, Nat.cast_zero,
      add_zero]
  · rw [isRefPoint_of_numbers (kn := 0) (dn := 1000) rfl rfl]
    simp
  · rw [isRefPoint_of_numbers (kn := 90) (dn := 3000) rfl rfl]
    simp [cos_ninety_degrees, sin_ninety_degrees]
  · rw [isRefPoint_of_numbers (kn := 90) (dn := 3000) rfl rfl]
    have hangle : (90 + (90 : ℕ)) * Real.pi / 180 = Real.pi := by ring
    simp only [hangle, Real.cos_pi, Real.sin_pi]
    norm_num

/-- Settles O52: the reference assembly is Assemble under the endpoint function, so its segments are the placed elements. -/
theorem referenceAssembly : Obligations.ReferenceAssembly := by
  refine fun scan pose => ⟨assembleWith (refEndpoint pose) scan, isRefAssembly_iff.mpr rfl,
    fun _ h => (isRefAssembly_iff.mp h).symm, List.length_map .., fun n q seg hq hseg => ?_, fun i j d1 d2 hj h => ?_⟩
  · rw [assembleWith, List.getElem?_map, hq] at hseg
    obtain rfl := Option.some.inj hseg
    exact ⟨rfl, rfl, rfl, rfl⟩
  · exact ⟨_, List.mem_map_of_mem (mem_polarForm_of_samples hj h), rfl, rfl, rfl, rfl⟩

end Sys2Proof.Machine
end

section
/-! PROOFS. The anomalies of `spec/60_exceptions.md` R200 to R209: nothing is raised, a poll with no data ends the drain, an
overflow restarts the buffer, a short or unknown Frame is no event, and the next SYNC byte resynchronises. -/

namespace Sys2Proof.Machine

/-- Every instruction, well-formed or not, answers a next state (R200). -/
theorem exec_eq_next (i : Instr) (s : State) : ∃ t, exec i s = .next t := by
  cases i with
  | gyro p => exact ⟨applyEvent (gyroEvent p) s, rfl⟩
  | accel p => exact ⟨applyEvent (accelEvent p) s, rfl⟩
  | scan p => exact ⟨applyEvent (scanEvent p) s, rfl⟩
  | unk op p => exact ⟨s, rfl⟩
  | sync b => exact ⟨acceptByte (syncArm s.cur b) s, rfl⟩
  | data b => exact ⟨acceptByte (dataArm s.cur b) s, rfl⟩

/-- Every turn of a step answers a next state (R200). -/
theorem step_eq_next (s : State) : ∃ t, step s = .next t := by
  rcases step_cases s with ⟨_, _, -, hs⟩ | ⟨-, ⟨-, hs⟩ | ⟨-, -, hs⟩ | ⟨_, _, -, -, hs⟩⟩ <;> exact ⟨_, hs⟩

/-- A byte of either class that finds the buffer over the bound is all that is left in it, and emits no Frame (R202). -/
theorem byteStep_of_overflow {cur : List Byte} (h : Config.hw.bufBound < cur.length) (b : Byte) :
    byteStep cur b = ([b], none) := by
  cases hb : isSync b with
  | true => rw [byteStep_of_sync hb, overflowGuard_of_gt h, completedFrame_of_not_synced synced_nil]
  | false => rw [byteStep_of_data hb, overflowGuard_of_gt h, List.nil_append]

/-- A Frame shorter than its format requires is no event (R203). -/
theorem sensorEvent_of_short {f : Frame} (h : isShortFrame f) : sensorEvent f = .nothing := by
  obtain ⟨op, p⟩ := f
  rcases h with ⟨rfl, hlen⟩ | ⟨rfl, hlen⟩ | ⟨rfl, hlen⟩
  · exact gyroEvent_of_lt hlen
  · exact accelEvent_of_lt hlen
  · exact scanEvent_of_lt hlen

/-- Decoding a short or an unknown Frame changes nothing (R203, R204). -/
theorem decodeStep_of_short_or_unknown {f : Frame} (h : isShortFrame f ∨ isUnknownFrame f) (s : State) :
    decodeStep f s = s := by
  rcases h with hshort | ⟨hg, ha, hs⟩
  · exact congrArg (applyEvent · s) (sensorEvent_of_short hshort)
  · exact decodeStep_of_other hg ha hs f.payload s

/-- Settles O24: the first SYNC byte emits at most one Frame and leaves itself in the buffer, and the frame it opens fits
the bound. -/
theorem nextSyncRecovers : Obligations.NextSyncRecovers := by
  simp only [Obligations.NextSyncRecovers, ← isSync_iff, ← not_isSync_iff]
  intro cur ds op c hop hds hlen hc
  have hfits : isSync c = true ∧ [op].length + ds.length ≤ Config.hw.bufBound := by
    simp only [List.length_singleton, Config.hw_bufBound]
    exact ⟨hc, by omega⟩
  have hframe : (framesOf [op] (ds ++ [c])).2 = [⟨op, ds⟩] := by
    rw [framesOf_after_data hop hds, if_pos hfits, List.nil_append]
  have hfirst : (framesOf cur [op]).2 = (byteStep cur op).2.toList := framesOf_concat cur [] op
  refine ⟨(byteStep cur op).2.toList, Option.length_toList_le, ?_⟩
  calc (framesOf cur (op :: ds ++ [c])).2
      = (framesOf cur [op]).2 ++ (framesOf [op] (ds ++ [c])).2 := framesOf_cut_at_sync hop cur [] (ds ++ [c])
    _ = (byteStep cur op).2.toList ++ [⟨op, ds⟩] := by rw [hfirst, hframe]

/-- Settles O38: the byte on an overflowing buffer restarts it, and a Frame whose decoding changes nothing leaves its
closing SYNC byte the buffer and the drain alone. -/
theorem anomaliesAreAbsorbed : Obligations.AnomaliesAreAbsorbed := by
  refine ⟨fun s b hover => ?_, fun s f h => ⟨?_, fun b hcur hop hlen => ?_⟩⟩
  · rw [exec_decodeByte, byteStep_of_overflow hover]
    rfl
  · rw [exec_decodeFrame, decodeStep_of_short_or_unknown h]
  · rw [exec_sync_of_frame hcur ((isSync_iff _).mpr hop) hlen b, decodeStep_of_short_or_unknown h]
    rfl

/-- Settles O18, by the step of a poll with no data. -/
theorem noDataEndsDrain : Obligations.NoDataEndsDrain :=
  fun _ hq hd hr => step_of_noByte hq hd hr

/-- Settles O53, by the turns of a step and the rows of `exec`. -/
theorem nothingIsRaised : Obligations.NothingIsRaised :=
  ⟨step_eq_next, exec_eq_next⟩

end Sys2Proof.Machine
end

section
/-! PROOFS. Reset and the hazards of `spec/70_reset_and_hazards.md` (R230 to R238): the reset event and the idle machine, the
DATA bytes that yield nothing, and the backlog that takes one tick for each of its Frames. -/

namespace Sys2Proof.Machine

/-- Settles O2, by the host's turn of a step. -/
theorem resetFromAnyState : Obligations.ResetFromAnyState :=
  fun _ _ hh => step_of_host hh

/-- Settles O3, by induction on the number of steps: each takes the idle turn, with no host entry to use up. -/
theorem idleUntilTick : Obligations.IdleUntilTick := by
  intro n s hd hh
  have hs : step s = .next s := by
    rw [step_of_closed (State.hostQuiet_of_nil hh) hd, State.setHost_tail_of_nil hh]
  induction n with
  | zero => rfl
  | succ n ih => rw [runSteps_succ hs, ih]

/-- With the host doing nothing and the drain open, a DATA byte on offer is taken into the buffer and nothing more (R116,
R122). -/
theorem step_of_data_byte {s : State} {d : Byte} {rs : List (Option Byte)} (hh : s.host = []) (ho : s.drainOpen = true)
    (hr : s.rx = some d :: rs) (hd : isSync d = false) :
    step s = .next ((s.setRx rs).setCur (byteStep s.cur d).1) := by
  have hnone : (byteStep s.cur d).2 = none := by rw [byteStep_of_data hd]
  have hopen : ((s.setRx rs).setCur (byteStep s.cur d).1).drainOpen = true := ho
  rw [step_of_byte (State.hostQuiet_of_nil hh) ho hr, State.setHost_tail_of_nil hh, acceptByte_none hnone,
    afterByte_of_open hopen]

/-- Settles O43, by induction on the DATA bytes: each step takes one and keeps all but the buffer. -/
theorem dataBytesKeepDrainOpen : Obligations.DataBytesKeepDrainOpen := by
  simp only [Obligations.DataBytesKeepDrainOpen, ← not_isSync_iff]
  intro s ds rs hh ho hr hds
  induction ds generalizing s with
  | nil => exact ⟨s, rfl, ho, hr, rfl, s.sameSensors_refl⟩
  | cons d ds ih =>
    obtain ⟨hd, hds⟩ := List.forall_mem_cons.mp hds
    have hs := step_of_data_byte hh ho hr hd
    obtain ⟨t, ht, hkept⟩ := ih ((s.setRx (ds.map some ++ rs)).setCur (byteStep s.cur d).1) hh ho rfl hds
    exact ⟨t, (runSteps_succ hs ds.length).trans ht, hkept⟩

/-- Any two unsynced buffers yield the same Frames: a SYNC byte replaces either, and DATA bytes leave both unsynced
(R115). -/
theorem framesOf_eq_of_not_synced {cur cur' : List Byte} (h : synced cur = false) (h' : synced cur' = false)
    (bs : List Byte) : (framesOf cur bs).2 = (framesOf cur' bs).2 := by
  induction bs generalizing cur cur' with
  | nil => rfl
  | cons b bs ih =>
    simp only [framesOf_cons, byteStep_of_not_synced h, byteStep_of_not_synced h']
    cases hb : isSync b with
    | true => rw [byteStep_of_sync hb, byteStep_of_sync hb]
    | false =>
      rw [byteStep_of_data hb, byteStep_of_data hb,
        ih (append_not_synced (overflowGuard_not_synced h) hb) (append_not_synced (overflowGuard_not_synced h') hb)]

/-- Settles O25: the DATA bytes yield no Frame and leave the buffer unsynced, as the empty one is. -/
theorem bytesBeforeFirstSync : Obligations.BytesBeforeFirstSync := by
  simp only [Obligations.BytesBeforeFirstSync, ← not_isSync_iff]
  intro ds rest hds
  rw [framesOf_append, framesOf_of_data hds, List.nil_append]
  exact framesOf_eq_of_not_synced (framesOf_not_synced hds synced_nil) synced_nil rest

/-- While the bytes to come complete no Frame, no tick changes SensorState (R234). -/
theorem ticks_sameSensors_of_noFrame {s : State} (h : (framesOf s.cur (bytesOf s.rx)).2 = []) (n : Nat) :
    (ticks n s).sameSensors s := by
  obtain ⟨taken, hr, -, hsensors⟩ := ticks_sameDecoding n s
  rw [hr, bytesOf_append, framesOf_append] at h
  rwa [foldBytes, (List.append_eq_nil_iff.mp h).1] at hsensors

/-- Settles O26: DATA bytes complete no Frame, whatever frame is open. -/
theorem lastFrameWaits : Obligations.LastFrameWaits := by
  simp only [Obligations.LastFrameWaits, ← not_isSync_iff]
  exact fun n s hds => ticks_sameSensors_of_noFrame (framesOf_of_data hds s.cur) n

theorem decodeStep_sameSensors {s t : State} (h : s.sameSensors t) (f : Frame) :
    (decodeStep f s).sameSensors (decodeStep f t) :=
  applyEvent_sameSensors h (sensorEvent f)

/-- Of bytes that complete a Frame the drain loop applies the first one only, and leaves those that complete the others
(R122, R237). -/
theorem drainLoop_backlog {bs : List Byte} {s : State} {f : Frame} {fs : List Frame}
    (h : (framesOf s.cur bs).2 = f :: fs) (rs : List (Option Byte)) :
    ∃ t later, drainLoop (bs.map some ++ rs) s = t ∧ t.rx = later.map some ++ rs ∧ (framesOf t.cur later).2 = fs ∧
      t.sameSensors (decodeStep f s) := by
  induction bs generalizing s with
  | nil => cases h
  | cons b bs ih =>
    rw [framesOf_cons] at h
    have hsame : ((s.setRx (bs.map some ++ rs)).setCur (byteStep s.cur b).1).sameSensors s := s.sameSensors_refl
    cases hb : (byteStep s.cur b).2 with
    | none =>
      rw [hb] at h
      obtain ⟨t, later, ht, hrx, hframes, hsensors⟩ :=
        ih (s := (s.setRx (bs.map some ++ rs)).setCur (byteStep s.cur b).1) h
      exact ⟨t, later, (drainLoop_noFrame hb _).trans ht, hrx, hframes,
        State.sameSensors_trans hsensors (decodeStep_sameSensors hsame f)⟩
    | some g =>
      rw [hb] at h
      obtain ⟨rfl, hfs⟩ := List.cons.inj h
      exact ⟨_, bs, drainLoop_frame hb _, by simp, by simpa using hfs, decodeStep_sameSensors hsame g⟩

/-- A tick on a backlog applies its first Frame and leaves a backlog of the others (R237). -/
theorem tick_backlog {s : State} {bs : List Byte} {rs : List (Option Byte)} {f : Frame} {fs : List Frame}
    (hr : s.rx = bs.map some ++ rs) (h : (framesOf s.cur bs).2 = f :: fs) :
    ∃ later, (tick s).1.rx = later.map some ++ rs ∧ (framesOf (tick s).1.cur later).2 = fs ∧
      (tick s).1.sameSensors (decodeStep f s) := by
  obtain ⟨t, later, ht, hrx, hframes, hsensors⟩ := drainLoop_backlog (s := s.setDrainOpen true) h rs
  have hopen : (s.setDrainOpen true).sameSensors s := s.sameSensors_refl
  have htick : (tick s).1 = t.present := by rw [← ht, ← hr]; rfl
  rw [htick]
  exact ⟨later, hrx, hframes, State.sameSensors_trans hsensors (decodeStep_sameSensors hopen f)⟩

/-- `n` ticks on a backlog apply its first `n` Frames in order, where it has as many or nothing comes after it (R237). -/
theorem ticks_backlog {n : Nat} {s : State} {bs : List Byte} {rs : List (Option Byte)} (hr : s.rx = bs.map some ++ rs)
    (hn : n ≤ (framesOf s.cur bs).2.length ∨ rs = []) :
    (ticks n s).sameSensors (decodeAll ((framesOf s.cur bs).2.take n) s) := by
  induction n generalizing s bs with
  | zero => exact s.sameSensors_refl
  | succ n ih =>
    cases hf : (framesOf s.cur bs).2 with
    | nil =>
      obtain rfl : rs = [] := hn.resolve_left (by simp [hf])
      exact ticks_sameSensors_of_noFrame (by simpa [hr, bytesOf] using hf) (n + 1)
    | cons f fs =>
      obtain ⟨later, hlater, hfs, hsensors⟩ := tick_backlog hr hf
      have hrest : n ≤ (framesOf (tick s).1.cur later).2.length ∨ rs = [] :=
        hn.imp_left fun hlen => by rw [hf] at hlen; rw [hfs]; exact Nat.le_of_succ_le_succ hlen
      have hticks := ih hlater hrest
      rw [hfs] at hticks
      exact State.sameSensors_trans hticks (decodeAll_sameSensors hsensors (fs.take n))

/-- No tick touches the pose input (R26). -/
@[simp] theorem tick_pose (s : State) : (tick s).1.pose = s.pose := by
  obtain ⟨taken, rest, -, -, htick⟩ := tick_eq_foldBytes s
  rw [htick, endDrain_pose, foldBytes_pose]
  rfl

@[simp] theorem ticks_pose (n : Nat) (s : State) : (ticks n s).pose = s.pose := by
  induction n generalizing s with
  | zero => rfl
  | succ n ih => exact (ih _).trans (tick_pose s)

/-- One tick more, counted at the end. -/
theorem ticks_succ_last (n : Nat) (s : State) : ticks (n + 1) s = (tick (ticks n s)).1 := by
  induction n generalizing s with
  | zero => rfl
  | succ n ih => exact ih _

/-- The assembler of the tick after `n` ticks works on the scan as that tick leaves it (R122, R237). -/
theorem tick_ticks_segments (n : Nat) (s : State) :
    (tick (ticks n s)).2 = assemble (ticks (n + 1) s).scan s.pose := by
  rw [tick_segments, tick_pose, ticks_pose, ticks_succ_last]

/-- Answers that all bring a byte are those bytes. -/
theorem map_some_bytesOf {rs : List (Option Byte)} (h : none ∉ rs) : (bytesOf rs).map some = rs := by
  induction rs with
  | nil => rfl
  | cons r rs ih =>
    cases r with
    | none => simp at h
    | some b => simpa using ih fun hmem => h (.tail _ hmem)

/-- Settles O41: the first clause is a backlog with as many Frames, the second one that nothing follows. -/
theorem backlogTakesOneTickPerFrame : Obligations.BacklogTakesOneTickPerFrame := by
  refine ⟨fun n s bs rs hr hn => ⟨ticks_backlog hr (.inl hn), tick_ticks_segments n s⟩,
    fun n s hnone => ⟨ticks_backlog (rs := []) ?_ (.inr rfl), tick_ticks_segments n s⟩⟩
  rw [List.append_nil, map_some_bytesOf hnone]

end Sys2Proof.Machine
end
